-- ==== Sys2Proof/Word.lean ====
section
/-! DEFINITION. The values that travel on the bus: bytes, addresses, the primitives handed to the transport and
the events seen on it (00_scope.md R10, R12; 41_sequencer.md R132). -/

namespace Sys2Proof

/-- An 8-bit unsigned value (00_scope.md R10). -/
abbrev Byte := BitVec 8

/-- An address as it travels on the bus: 24 bits unsigned (20_memory.md R50). -/
abbrev FlashAddress := BitVec 24

/-- The two levels of the chip-select output; which electrical level means which is outside the block
(10_state.md R24; 00_scope.md R8). -/
inductive ChipSelect where
  | asserted
  | deasserted
deriving DecidableEq, Repr

/-- The byte-level primitives the sequencer hands to the transport (41_sequencer.md R132). -/
inductive Prim where
  | sel
  | desel
  | tx (b : Byte)
  | rx
deriving DecidableEq, Repr

/-- The byte-level events of the trace (00_scope.md R12). -/
inductive Event where
  | sel
  | desel
  | tx (b : Byte)
  | rx (b : Byte)
deriving DecidableEq, Repr

end Sys2Proof
end

