-- ==== Sys2Proof/Config.lean ====
section
/-! DEFINITION. What an implementation fixes (00_scope.md R5 to R7) and the one free value: the bytes the
transport answers (41_sequencer.md R139). -/

namespace Sys2Proof.Config

/-- `ADDR_IN_BITS`: width of the address operand on the command port, the spec's default (00_scope.md R5).
DESIGN CHOICE, safe: the spec lets a model take any width of at least 24; log 9. -/
abbrev addrInBits : Nat := 32

/-- `LEN_BITS`: width of a byte count on the command port, the spec's default (00_scope.md R6).
DESIGN CHOICE, safe: the spec lets a model take any width of at least 9; log 9. -/
abbrev lenBits : Nat := 16

/-- `PAGE_CLAMP` (00_scope.md R7). -/
abbrev pageClamp : Nat := 256

/-- `DUMMY_VALUE` (00_scope.md R7). -/
abbrev dummyValue : Byte := 0x00#8

/-- `DUMMY_FAST`: dummy count of FastRead and ReadSecurityRegister (00_scope.md R7). -/
abbrev dummyFast : Nat := 1

/-- `DUMMY_ID`: dummy count of the DeviceID probe (00_scope.md R7). -/
abbrev dummyId : Nat := 3

/-- FREE VALUE, no body: the byte the transport answers to the draw of the given number after the given trace
("a draw under no law, supplied by an oracle that may look at the whole trace so far", 41_sequencer.md R139).
DEDUCED, safe: nothing in Lean can evaluate it, so a statement about it holds for every oracle; log 1. -/
opaque oracle (draw : Nat) (history : List Event) : Byte

end Sys2Proof.Config
end

