-- ==== Sys2Proof/Syntax.lean ====
section
/-! DEFINITION. The two levels of the instruction set (00_scope.md R1): the 15 operations of the command port and
the 19 catalogue instructions of the wire, their operands, and `Instr`, one constructor per row of
opcode_table.json. -/

namespace Sys2Proof

/-- The address operand on the command port, before truncation (00_scope.md R5; 10_state.md R22). -/
abbrev AddrIn := BitVec Config.addrInBits

/-- Exactly 8 booleans, `f0` the flag of index 0 (00_scope.md R10; 40_codecs.md R114). -/
structure Flags8 where
  f0 : Bool
  f1 : Bool
  f2 : Bool
  f3 : Bool
  f4 : Bool
  f5 : Bool
  f6 : Bool
  f7 : Bool
deriving DecidableEq, Repr

/-- The eight shapes of a bracket (30_encoding.md R82). -/
inductive Shape where
  | none
  | addr
  | addrDout
  | addrDin
  | dout
  | din
  | addrDmyDin
  | dmyDin
deriving DecidableEq, Repr

/-- The closed catalogue of wire instructions, rows I1 to I19 in order (30_encoding.md R90). -/
inductive Wire where
  | writeEnable
  | volatileSRWriteEnable
  | writeDisable
  | readStatusReg1
  | readStatusReg2
  | writeStatusReg
  | pageProgram
  | sectorErase4KB
  | blockErase32KB
  | blockErase64KB
  | chipErase
  | eraseProgramSuspend
  | eraseProgramResume
  | powerDown
  | readData
  | fastRead
  | releasePowerDown
  | readSecurityRegister
  | deviceIdProbe
deriving DecidableEq, Repr

/-- A request: one of the 15 operations with its operands, the closed command set (10_state.md R22;
30_encoding.md R92, R93). No value of this type names VolatileSRWriteEnable, WriteDisable or a bare WriteEnable
(R94; 45_control_ops.md R195). -/
inductive Request where
  | readStatusRegisters
  | writeStatusRegisters (sr1 sr2 : Flags8)
  | readData (addr : AddrIn)
  | fastReadData (addr : AddrIn) (n : Nat)
  | pageProgram (addr : AddrIn) (data : List Byte)
  | readSecurityRegister (addr : AddrIn) (n : Nat)
  | sectorErase4KB (addr : AddrIn)
  | blockErase32KB (addr : AddrIn)
  | blockErase64KB (addr : AddrIn)
  | chipErase
  | suspend
  | resume
  | powerDown
  | releasePowerDown
  | deviceID
deriving DecidableEq, Repr

/-- One invocation `Bracket(i, a, out, nin)` of the bracket primitive (41_sequencer.md R130), its address as it
travels on the bus. A field the shape of `wire` does not use is not read. -/
structure Call where
  wire : Wire
  addr : FlashAddress
  out  : List Byte
  nin  : Nat
deriving DecidableEq, Repr

/-- What the sequencer is working on in `Run`: a latched request (10_state.md R22), or one bracket alone
(41_sequencer.md R130; log 7). -/
inductive Job where
  | operation (r : Request)
  | bracket (c : Call)
deriving DecidableEq, Repr

/-- A request as the host presents it on the command port: the 4-bit selector and every operand input
(60_exceptions.md R222; 30_encoding.md R93; 10_state.md R22). An operand the operation does not use is not read.
DESIGN CHOICE, safe: a record of named inputs, the port's signals being abstract; log 2. -/
structure PortRequest where
  selector : BitVec 4
  addr     : AddrIn
  n        : BitVec Config.lenBits
  data     : List Byte
  sr1      : Flags8
  sr2      : Flags8
deriving DecidableEq, Repr

/-- The encoded form of an instruction: an operation is a request on the command port, a catalogue instruction
is a bracket of primitives (30_encoding.md R80, R92). -/
inductive Frame where
  | request (p : PortRequest)
  | bracket (ps : List Prim)
deriving DecidableEq, Repr

/-- One constructor per row of opcode_table.json: the 15 rows of level `operation`, then the 19 rows of level
`wire` (their names begin with `wire`). -/
inductive Instr where
  | readStatusRegisters
  | writeStatusRegisters (sr1 sr2 : Flags8)
  | readData (addr : AddrIn)
  | fastReadData (addr : AddrIn) (n : Nat)
  | pageProgram (addr : AddrIn) (data : List Byte)
  | readSecurityRegister (addr : AddrIn) (n : Nat)
  | sectorErase4KB (addr : AddrIn)
  | blockErase32KB (addr : AddrIn)
  | blockErase64KB (addr : AddrIn)
  | chipErase
  | suspend
  | resume
  | powerDown
  | releasePowerDown
  | deviceID
  | wireWriteEnable
  | wireVolatileSRWriteEnable
  | wireWriteDisable
  | wireReadStatusReg1
  | wireReadStatusReg2
  | wireWriteStatusReg (p1 p2 : Byte)
  | wirePageProgram (addr : FlashAddress) (out : List Byte)
  | wireSectorErase4KB (addr : FlashAddress)
  | wireBlockErase32KB (addr : FlashAddress)
  | wireBlockErase64KB (addr : FlashAddress)
  | wireChipErase
  | wireEraseProgramSuspend
  | wireEraseProgramResume
  | wirePowerDown
  | wireReadData (addr : FlashAddress)
  | wireFastRead (addr : FlashAddress) (n : Nat)
  | wireReleasePowerDown
  | wireReadSecurityRegister (addr : FlashAddress) (n : Nat)
  | wireDeviceIdProbe
deriving DecidableEq, Repr

end Sys2Proof
end

