-- ==== Sys2Proof/Machine/Operands.lean ====
section
/-! DEFINITION. The operand forms: address truncation and encoding, the count clamp (40_codecs.md R110, R111,
R120). Every function is total and pure; nothing is signed (R121), no address is computed from another (R122). -/

namespace Sys2Proof.Machine

/-- `trunc24`: the low 24 bits of an address operand of any width (40_codecs.md R110). -/
def trunc24 {w : Nat} (a : BitVec w) : FlashAddress := a.setWidth 24

/-- `AddrEnc`: the 3 address bytes, most significant first, index 0 sent first (40_codecs.md R111). -/
def addrEnc {w : Nat} (a : BitVec w) : List Byte :=
  let t := trunc24 a
  [t.extractLsb' 16 8, t.extractLsb' 8 8, t.extractLsb' 0 8]

/-- The 24-bit address whose bytes are `a2 a1 a0`, most significant first. An observer's function: the block has
no address decoder (40_codecs.md R112, R113). -/
def joinAddr (a2 a1 a0 : Byte) : FlashAddress := a2 ++ a1 ++ a0

/-- `DecodeBytes` of the source's tests, no part of the block (40_codecs.md R112, R113). -/
def decodeBytes : List Byte → Option Nat
  | [b0, b1, b2] => some (b0.toNat * 65536 + b1.toNat * 256 + b2.toNat)
  | _ => none

/-- `clamp256` (40_codecs.md R120). -/
def clamp256 (n : Nat) : Nat := min n Config.pageClamp

/-- The bytes of a PageProgram that are sent: the leading `clamp256 N` of them; the rest is dropped
(44_program_erase_ops.md R175, R176). -/
def pagePayload (data : List Byte) : List Byte := data.take (clamp256 data.length)

end Sys2Proof.Machine
end

