-- ==== Sys2Proof/Machine/Catalogue.lean ====
section
/-! DEFINITION. The catalogue's constants (30_encoding.md R82, R86, R90) and the bracket they describe, at byte
level and as bursts (41_sequencer.md R130 to R134). -/

namespace Sys2Proof

/-- The opcode byte (30_encoding.md R90). 0xAB stands twice (R91). -/
def Wire.opcode : Wire → Byte
  | .writeEnable => 0x06#8
  | .volatileSRWriteEnable => 0x50#8
  | .writeDisable => 0x04#8
  | .readStatusReg1 => 0x05#8
  | .readStatusReg2 => 0x35#8
  | .writeStatusReg => 0x01#8
  | .pageProgram => 0x02#8
  | .sectorErase4KB => 0x20#8
  | .blockErase32KB => 0x52#8
  | .blockErase64KB => 0xD8#8
  | .chipErase => 0xC7#8
  | .eraseProgramSuspend => 0x75#8
  | .eraseProgramResume => 0x7A#8
  | .powerDown => 0xB9#8
  | .readData => 0x03#8
  | .fastRead => 0x0B#8
  | .releasePowerDown => 0xAB#8
  | .readSecurityRegister => 0x48#8
  | .deviceIdProbe => 0xAB#8

/-- The shape, or none where the source gives no shape (30_encoding.md R90, R94). -/
def Wire.shape : Wire → Option Shape
  | .writeEnable => some .none
  | .volatileSRWriteEnable => none
  | .writeDisable => none
  | .readStatusReg1 => some .din
  | .readStatusReg2 => some .din
  | .writeStatusReg => some .dout
  | .pageProgram => some .addrDout
  | .sectorErase4KB => some .addr
  | .blockErase32KB => some .addr
  | .blockErase64KB => some .addr
  | .chipErase => some .none
  | .eraseProgramSuspend => some .none
  | .eraseProgramResume => some .none
  | .powerDown => some .none
  | .readData => some .addrDin
  | .fastRead => some .addrDmyDin
  | .releasePowerDown => some .none
  | .readSecurityRegister => some .addrDmyDin
  | .deviceIdProbe => some .dmyDin

/-- The dummy count `d` (30_encoding.md R86: 1 for the fast read and the security-register read, 3 for the
device-ID probe, 0 for every other instruction). -/
def Wire.dummies : Wire → Nat
  | .fastRead => Config.dummyFast
  | .readSecurityRegister => Config.dummyFast
  | .deviceIdProbe => Config.dummyId
  | _ => 0

/-- Whether a bracket of the shape has the field ADR (30_encoding.md R82). -/
def Shape.hasAddr : Shape → Bool
  | .addr | .addrDout | .addrDin | .addrDmyDin => true
  | .none | .dout | .din | .dmyDin => false

/-- Whether the payload is transmitted (30_encoding.md R82). -/
def Shape.sends : Shape → Bool
  | .addrDout | .dout => true
  | .none | .addr | .addrDin | .din | .addrDmyDin | .dmyDin => false

/-- Whether the payload is received (30_encoding.md R82). -/
def Shape.receives : Shape → Bool
  | .addrDin | .din | .addrDmyDin | .dmyDin => true
  | .none | .addr | .addrDout | .dout => false

/-- `Shape.hasAddr` of a catalogue row; false where the source gives no shape. -/
def Wire.hasAddr (i : Wire) : Bool := i.shape.any Shape.hasAddr

/-- `Shape.sends` of a catalogue row; false where the source gives no shape. -/
def Wire.sends (i : Wire) : Bool := i.shape.any Shape.sends

/-- `Shape.receives` of a catalogue row; false where the source gives no shape. -/
def Wire.receives (i : Wire) : Bool := i.shape.any Shape.receives

/-- Whether the block can issue the row: the source gives it a shape (30_encoding.md R94). -/
def Wire.issuable (i : Wire) : Bool := i.shape.isSome

end Sys2Proof

namespace Sys2Proof.Machine

/-- The 16 byte values the block can emit as the first byte of a bracket (30_encoding.md R96). -/
def emittable : List Byte :=
  [0x01#8, 0x02#8, 0x03#8, 0x05#8, 0x06#8, 0x0B#8, 0x20#8, 0x35#8,
   0x48#8, 0x52#8, 0x75#8, 0x7A#8, 0xAB#8, 0xB9#8, 0xC7#8, 0xD8#8]

/-- `BracketPrims(i, a, out, nin)`: the six steps of a bracket at byte level (41_sequencer.md R130, R132). -/
def bracketPrims {w : Nat} (i : Wire) (a : BitVec w) (out : List Byte) (nin : Nat) : List Prim :=
  [.sel, .tx i.opcode]
    ++ (if i.hasAddr then (addrEnc a).map .tx else [])
    ++ List.replicate i.dummies (.tx Config.dummyValue)
    ++ (if i.sends then out.map .tx else [])
    ++ (if i.receives then List.replicate nin .rx else [])
    ++ [.desel]

/-- `WREN`: the write-enable bracket that comes before every write-class bracket (41_sequencer.md R136, R137). -/
def wren : List Prim := bracketPrims .writeEnable (0 : FlashAddress) [] 0

/-- A call of one transport primitive that carries a whole sequence (41_sequencer.md R133). -/
inductive Burst where
  | select
  | transmit (bs : List Byte)
  | receive (n : Nat)
  | deselect
deriving DecidableEq, Repr

/-- The byte-level primitives a burst stands for (00_scope.md R12). -/
def Burst.prims : Burst → List Prim
  | .select => [.sel]
  | .transmit bs => bs.map .tx
  | .receive n => List.replicate n .rx
  | .deselect => [.desel]

/-- One transmit burst, or none for no bytes (41_sequencer.md R133). -/
def transmitBurst (bs : List Byte) : List Burst := if bs.isEmpty then [] else [.transmit bs]

/-- One receive burst, or none for no bytes (41_sequencer.md R133). -/
def receiveBurst (n : Nat) : List Burst := if n = 0 then [] else [.receive n]

/-- A bracket as bursts: opcode, address, dummy and payload each one burst (41_sequencer.md R133). -/
def bracketBursts {w : Nat} (i : Wire) (a : BitVec w) (out : List Byte) (nin : Nat) : List Burst :=
  [.select, .transmit [i.opcode]]
    ++ (if i.hasAddr then transmitBurst (addrEnc a) else [])
    ++ transmitBurst (List.replicate i.dummies Config.dummyValue)
    ++ (if i.sends then transmitBurst out else [])
    ++ (if i.receives then receiveBurst nin else [])
    ++ [.deselect]

end Sys2Proof.Machine
end

