-- ==== Sys2Proof/Machine/Flags.lean ====
section
/-! DEFINITION. The status-register codec and the names of the 16 flags (40_codecs.md R114 to R118; 10_state.md
R27, R28). The block keeps no flag of its own (10_state.md R26). -/

namespace Sys2Proof

/-- The flag of index `i`. -/
def Flags8.get (f : Flags8) : Fin 8 → Bool
  | 0 => f.f0
  | 1 => f.f1
  | 2 => f.f2
  | 3 => f.f3
  | 4 => f.f4
  | 5 => f.f5
  | 6 => f.f6
  | 7 => f.f7

/-- All flags false. -/
def Flags8.clear : Flags8 := ⟨false, false, false, false, false, false, false, false⟩

/-- The flags of Status Register 1 by name (10_state.md R27). -/
inductive Sr1Flag where
  | BUSY | WEL | BP0 | BP1 | BP2 | TB | SEC | SRP0
deriving DecidableEq, Repr

/-- The flags of Status Register 2 by name (10_state.md R28). -/
inductive Sr2Flag where
  | SRP1 | QE | R | LB1 | LB2 | LB3 | CMP | SUS
deriving DecidableEq, Repr

/-- Index of a flag of Status Register 1 (10_state.md R27). -/
def Sr1Flag.index : Sr1Flag → Fin 8
  | .BUSY => 0
  | .WEL => 1
  | .BP0 => 2
  | .BP1 => 3
  | .BP2 => 4
  | .TB => 5
  | .SEC => 6
  | .SRP0 => 7

/-- Index of a flag of Status Register 2 (10_state.md R28). -/
def Sr2Flag.index : Sr2Flag → Fin 8
  | .SRP1 => 0
  | .QE => 1
  | .R => 2
  | .LB1 => 3
  | .LB2 => 4
  | .LB3 => 5
  | .CMP => 6
  | .SUS => 7

end Sys2Proof

namespace Sys2Proof.Machine

/-- The mask of a flag index: bit `i` has weight `2^i` (40_codecs.md R115, R118). -/
def flagMask (i : Fin 8) : Byte := 1#8 <<< i.val

/-- `SrDec`: bit `i` of the byte is flag `i` (40_codecs.md R114). -/
def srDec (b : Byte) : Flags8 :=
  ⟨b.getLsbD 0, b.getLsbD 1, b.getLsbD 2, b.getLsbD 3, b.getLsbD 4, b.getLsbD 5, b.getLsbD 6, b.getLsbD 7⟩

/-- The mask of flag `i` if it is true, else zero. -/
def flagBit (f : Flags8) (i : Fin 8) : Byte := if f.get i then flagMask i else 0x00#8

/-- `SrEnc`: the masks of the true flags, combined by bitwise OR (40_codecs.md R115). -/
def srEnc (f : Flags8) : Byte :=
  flagBit f 0 ||| flagBit f 1 ||| flagBit f 2 ||| flagBit f 3 ||| flagBit f 4 ||| flagBit f 5 ||| flagBit f 6 |||
    flagBit f 7

/-- `SrDecPair` (40_codecs.md R117). -/
def srDecPair (b1 b2 : Byte) : Flags8 × Flags8 := (srDec b1, srDec b2)

/-- `SrEncPair` (40_codecs.md R117). -/
def srEncPair (f1 f2 : Flags8) : Byte × Byte := (srEnc f1, srEnc f2)

/-- A flag of Status Register 1 by its name (40_codecs.md R118). -/
def sr1Flag (f : Flags8) (name : Sr1Flag) : Bool := f.get name.index

/-- A flag of Status Register 2 by its name (40_codecs.md R118). -/
def sr2Flag (f : Flags8) (name : Sr2Flag) : Bool := f.get name.index

end Sys2Proof.Machine
end

