-- ==== Sys2Proof/Machine/Programs.lean ====
section
/-! DEFINITION. The micro-program of each operation, `Expand(req)` (41_sequencer.md R137), the brackets and bursts
it is made of, and the primitives of a job. -/

namespace Sys2Proof.Machine

/-- A bracket that reads no address. -/
def bare (i : Wire) (out : List Byte) (nin : Nat) : List Prim := bracketPrims i (0 : FlashAddress) out nin

/-- 42_status_ops.md R150. -/
def progReadStatusRegisters : List Prim := bare .readStatusReg1 [] 1 ++ bare .readStatusReg2 [] 1

/-- 42_status_ops.md R152; the byte of Status Register 1 first (20_memory.md R56). -/
def progWriteStatusRegisters (sr1 sr2 : Flags8) : List Prim :=
  wren ++ bare .writeStatusReg [(srEncPair sr1 sr2).1, (srEncPair sr1 sr2).2] 0

/-- 43_read_ops.md R160. -/
def progReadData (addr : AddrIn) : List Prim := bracketPrims .readData addr [] 1

/-- 43_read_ops.md R163. -/
def progFastReadData (addr : AddrIn) (n : Nat) : List Prim := bracketPrims .fastRead addr [] n

/-- 44_program_erase_ops.md R175, R176. -/
def progPageProgram (addr : AddrIn) (data : List Byte) : List Prim :=
  wren ++ bracketPrims .pageProgram addr (pagePayload data) 0

/-- 43_read_ops.md R166. -/
def progReadSecurityRegister (addr : AddrIn) (n : Nat) : List Prim := bracketPrims .readSecurityRegister addr [] n

/-- 44_program_erase_ops.md R180. -/
def progSectorErase4KB (addr : AddrIn) : List Prim := wren ++ bracketPrims .sectorErase4KB addr [] 0

/-- 44_program_erase_ops.md R181. -/
def progBlockErase32KB (addr : AddrIn) : List Prim := wren ++ bracketPrims .blockErase32KB addr [] 0

/-- 44_program_erase_ops.md R182. -/
def progBlockErase64KB (addr : AddrIn) : List Prim := wren ++ bracketPrims .blockErase64KB addr [] 0

/-- 44_program_erase_ops.md R183. -/
def progChipErase : List Prim := wren ++ bare .chipErase [] 0

/-- 45_control_ops.md R190. -/
def progSuspend : List Prim := bare .eraseProgramSuspend [] 0

/-- 45_control_ops.md R191. -/
def progResume : List Prim := bare .eraseProgramResume [] 0

/-- 45_control_ops.md R192. -/
def progPowerDown : List Prim := bare .powerDown [] 0

/-- 45_control_ops.md R193. -/
def progReleasePowerDown : List Prim := bare .releasePowerDown [] 0

/-- 43_read_ops.md R168. -/
def progDeviceID : List Prim := bare .deviceIdProbe [] 1

/-- The primitives of one invocation of the bracket primitive (41_sequencer.md R130, R132). -/
def progCall (c : Call) : List Prim := bracketPrims c.wire c.addr c.out c.nin

end Sys2Proof.Machine

namespace Sys2Proof

open Sys2Proof.Machine

/-- `Expand(req)`, the table of 41_sequencer.md R137. -/
def Request.expand : Request → List Prim
  | .readStatusRegisters => progReadStatusRegisters
  | .writeStatusRegisters sr1 sr2 => progWriteStatusRegisters sr1 sr2
  | .readData addr => progReadData addr
  | .fastReadData addr n => progFastReadData addr n
  | .pageProgram addr data => progPageProgram addr data
  | .readSecurityRegister addr n => progReadSecurityRegister addr n
  | .sectorErase4KB addr => progSectorErase4KB addr
  | .blockErase32KB addr => progBlockErase32KB addr
  | .blockErase64KB addr => progBlockErase64KB addr
  | .chipErase => progChipErase
  | .suspend => progSuspend
  | .resume => progResume
  | .powerDown => progPowerDown
  | .releasePowerDown => progReleasePowerDown
  | .deviceID => progDeviceID

/-- The micro-program of a job. -/
def Job.program : Job → List Prim
  | .operation r => r.expand
  | .bracket c => progCall c

/-- Whether the block can issue a job: a bracket's row has a shape (30_encoding.md R94). -/
def Job.issuable : Job → Bool
  | .operation _ => true
  | .bracket c => c.wire.issuable

/-- The write-class operations, the six that have the write-enable bracket (41_sequencer.md R136). -/
def Request.writeClass : Request → Bool
  | .writeStatusRegisters _ _ => true
  | .pageProgram _ _ => true
  | .sectorErase4KB _ => true
  | .blockErase32KB _ => true
  | .blockErase64KB _ => true
  | .chipErase => true
  | .readStatusRegisters => false
  | .readData _ => false
  | .fastReadData _ _ => false
  | .readSecurityRegister _ _ => false
  | .suspend => false
  | .resume => false
  | .powerDown => false
  | .releasePowerDown => false
  | .deviceID => false

/-- The catalogue instructions an operation is made of, in order (30_encoding.md R100). -/
def Request.wires : Request → List Instr
  | .readStatusRegisters => [.wireReadStatusReg1, .wireReadStatusReg2]
  | .writeStatusRegisters sr1 sr2 => [.wireWriteEnable, .wireWriteStatusReg (srEnc sr1) (srEnc sr2)]
  | .readData addr => [.wireReadData (trunc24 addr)]
  | .fastReadData addr n => [.wireFastRead (trunc24 addr) n]
  | .pageProgram addr data => [.wireWriteEnable, .wirePageProgram (trunc24 addr) (pagePayload data)]
  | .readSecurityRegister addr n => [.wireReadSecurityRegister (trunc24 addr) n]
  | .sectorErase4KB addr => [.wireWriteEnable, .wireSectorErase4KB (trunc24 addr)]
  | .blockErase32KB addr => [.wireWriteEnable, .wireBlockErase32KB (trunc24 addr)]
  | .blockErase64KB addr => [.wireWriteEnable, .wireBlockErase64KB (trunc24 addr)]
  | .chipErase => [.wireWriteEnable, .wireChipErase]
  | .suspend => [.wireEraseProgramSuspend]
  | .resume => [.wireEraseProgramResume]
  | .powerDown => [.wirePowerDown]
  | .releasePowerDown => [.wireReleasePowerDown]
  | .deviceID => [.wireDeviceIdProbe]

/-- The bursts of the write-enable bracket. -/
def wrenBursts : List Burst := bracketBursts .writeEnable (0 : FlashAddress) [] 0

/-- The micro-program as the source's burst-level trace groups it (41_sequencer.md R133). -/
def Request.bursts : Request → List Burst
  | .readStatusRegisters =>
    bracketBursts .readStatusReg1 (0 : FlashAddress) [] 1 ++ bracketBursts .readStatusReg2 (0 : FlashAddress) [] 1
  | .writeStatusRegisters sr1 sr2 =>
    wrenBursts ++ bracketBursts .writeStatusReg (0 : FlashAddress) [srEnc sr1, srEnc sr2] 0
  | .readData addr => bracketBursts .readData addr [] 1
  | .fastReadData addr n => bracketBursts .fastRead addr [] n
  | .pageProgram addr data => wrenBursts ++ bracketBursts .pageProgram addr (pagePayload data) 0
  | .readSecurityRegister addr n => bracketBursts .readSecurityRegister addr [] n
  | .sectorErase4KB addr => wrenBursts ++ bracketBursts .sectorErase4KB addr [] 0
  | .blockErase32KB addr => wrenBursts ++ bracketBursts .blockErase32KB addr [] 0
  | .blockErase64KB addr => wrenBursts ++ bracketBursts .blockErase64KB addr [] 0
  | .chipErase => wrenBursts ++ bracketBursts .chipErase (0 : FlashAddress) [] 0
  | .suspend => bracketBursts .eraseProgramSuspend (0 : FlashAddress) [] 0
  | .resume => bracketBursts .eraseProgramResume (0 : FlashAddress) [] 0
  | .powerDown => bracketBursts .powerDown (0 : FlashAddress) [] 0
  | .releasePowerDown => bracketBursts .releasePowerDown (0 : FlashAddress) [] 0
  | .deviceID => bracketBursts .deviceIdProbe (0 : FlashAddress) [] 1

end Sys2Proof
end

