-- ==== Sys2Proof/Machine/State.lean ====
section
/-! DEFINITION. The machine's state as plain data (10_state.md R20 to R25, R39, R40), its command port and its
transport (60_exceptions.md R220, R222), and the state after reset (10_state.md R40). -/

namespace Sys2Proof.Machine

/-- What an operation gives back at completion (41_sequencer.md R140). -/
inductive Result where
  /-- No value. -/
  | noValue
  /-- ReadStatusRegisters: the flags of Status Register 1 and of Status Register 2. -/
  | flags (sr1 sr2 : Flags8)
  /-- ReadData, DeviceID: one byte. -/
  | byte (b : Byte)
  /-- FastReadData, ReadSecurityRegister: all bytes in the order received; a bracket alone: the bytes its payload
  received (41_sequencer.md R130). -/
  | bytes (bs : List Byte)
deriving DecidableEq, Repr

/-- The sequencer's state (10_state.md R21). `pos` stands in the place of a program counter (R23). -/
inductive SeqState where
  | idle
  | run (job : Job) (prog : List Prim) (pos : Nat) (rx : List Byte)
deriving DecidableEq, Repr

/-- Why the machine stops. The block itself has no fault (60_exceptions.md R210). -/
inductive Fault where
  /-- The stuck state: the sequencer waits for a primitive the transport never completes (41_sequencer.md R143).
  Raised by `State.advance`. Safe: there is no later state to claim anything of; log 5. -/
  | transportNeverCompletes
deriving DecidableEq, Repr

/-- Why an instruction gets no meaning. -/
inductive Refusal where
  /-- The instruction of this mnemonic has no meaning yet. Raised by no arm: every row has its meaning. Safe. -/
  | notModelled (mnemonic : String)
  /-- A catalogue row that no operation issues and to which the source gives no shape, no operands and no
  semantics (30_encoding.md R94; 45_control_ops.md R196). Raised by the meanings of VolatileSRWriteEnable and
  WriteDisable. Safe: the block never emits the opcode. -/
  | neverIssued (opcode : Byte)
  /-- Another agent causes events on the transport while an operation runs: the premise `ExclusiveBus` fails and
  the spec promises nothing (60_exceptions.md R223). Raised by `State.advance`. Safe; log 6. -/
  | exclusiveBusBroken
deriving DecidableEq, Repr

/-- The state. `seq`, `sel` and `trace` are the spec's (10_state.md R21, R24; 00_scope.md R12); `port`, `done`,
`delivered` and `rst` are the command port (60_exceptions.md R222); `answers`, `draws`, `stallIn` and
`otherAgent` are the transport's side (R220, R223); `call` is the model's own (log 7). -/
structure State where
  /-- 10_state.md R21. -/
  seq : SeqState
  /-- Chip-select output, 10_state.md R24. -/
  sel : ChipSelect
  /-- Requests presented by the host and not yet accepted, oldest first (41_sequencer.md R144, R145). -/
  port : List PortRequest
  /-- A pending direct invocation of the bracket primitive (41_sequencer.md R130); no request can set it
  (45_control_ops.md R195). DESIGN CHOICE, safe; log 7. -/
  call : Option (List Prim)
  /-- The completion output: the result of the operation completed last, withdrawn when the next is accepted
  (60_exceptions.md R222). DESIGN CHOICE, unsafe; log 3. -/
  done : Option Result
  /-- The results delivered so far, oldest first; recorded, never read (41_sequencer.md R145). -/
  delivered : List Result
  /-- The byte-level trace; recorded, never read by the block (00_scope.md R12; 10_state.md R39). -/
  trace : List Event
  /-- The answers of a scripted transport, next first (41_sequencer.md R139). -/
  answers : List Byte
  /-- How many answers the opaque oracle has given; the free value's counter (log 1). -/
  draws : Nat
  /-- The number of primitives the transport still completes before it completes none for ever, or `none` where it
  completes every one (41_sequencer.md R143; 60_exceptions.md R221; log 5). -/
  stallIn : Option Nat
  /-- The reset input (70_reset_and_hazards.md R240). -/
  rst : Bool
  /-- Whether another agent causes events on the transport (60_exceptions.md R223). -/
  otherAgent : Bool
deriving DecidableEq, Repr

/-- The state right after reset (10_state.md R40; 70_reset_and_hazards.md R240, R242): `Idle`, chip-select
deasserted, the trace empty. The inputs are at rest and the outputs empty; DESIGN CHOICE, logs 1 to 7. -/
def State.reset : State where
  seq := .idle
  sel := .deasserted
  port := []
  call := none
  done := none
  delivered := []
  trace := []
  answers := []
  draws := 0
  stallIn := none
  rst := false
  otherAgent := false

end Sys2Proof.Machine
end

