-- ==== Sys2Proof/Machine/Ops.lean ====
section
/-! DEFINITION. The named operations over the state: acceptance, performing a primitive, completion, reset
(41_sequencer.md R138 to R144; 70_reset_and_hazards.md R240, R241). The hardware has no exception to take and no
return from one (60_exceptions.md R210 to R214). -/

namespace Sys2Proof.Machine

/-- `Result(req, rx)` (41_sequencer.md R140). Fewer received bytes than the operation reads cannot occur (10_state.md
R25; `SequencerInv` of Safety.lean); DESIGN CHOICE, safe: there is no value then; log 13. -/
def resultOf : Job → List Byte → Result
  | .operation .readStatusRegisters, s1 :: s2 :: _ => .flags (srDecPair s1 s2).1 (srDecPair s1 s2).2
  | .operation .readStatusRegisters, _ => .noValue
  | .operation (.writeStatusRegisters _ _), _ => .noValue
  | .operation (.readData _), r :: _ => .byte r
  | .operation (.readData _), [] => .noValue
  | .operation (.fastReadData _ _), rx => .bytes rx
  | .operation (.pageProgram _ _), _ => .noValue
  | .operation (.readSecurityRegister _ _), rx => .bytes rx
  | .operation (.sectorErase4KB _), _ => .noValue
  | .operation (.blockErase32KB _), _ => .noValue
  | .operation (.blockErase64KB _), _ => .noValue
  | .operation .chipErase, _ => .noValue
  | .operation .suspend, _ => .noValue
  | .operation .resume, _ => .noValue
  | .operation .powerDown, _ => .noValue
  | .operation .releasePowerDown, _ => .noValue
  | .operation .deviceID, r :: _ => .byte r
  | .operation .deviceID, [] => .noValue
  | .bracket _, rx => .bytes rx

/-- The byte the transport answers next: the script's, or the oracle's (41_sequencer.md R139). -/
def State.nextByte (s : State) : Byte :=
  match s.answers with
  | b :: _ => b
  | [] => Config.oracle s.draws s.trace

/-- The state with that byte taken from the transport. -/
def State.takeByte (s : State) : State :=
  match s.answers with
  | _ :: bs => { s with answers := bs }
  | [] => { s with draws := s.draws + 1 }

/-- One completed primitive fewer before the transport hangs. -/
def stallTick : Option Nat → Option Nat
  | some (k + 1) => some k
  | some 0 => some 0
  | none => none

/-- The event a completed primitive is recorded as (41_sequencer.md R132, R139). -/
def State.eventOf (s : State) : Prim → Event
  | .sel => .sel
  | .desel => .desel
  | .tx b => .tx b
  | .rx => .rx s.nextByte

/-- Chip-select after a completed primitive (10_state.md R24; 41_sequencer.md R139). -/
def State.levelAfter (s : State) : Prim → ChipSelect
  | .sel => .asserted
  | .desel => .deasserted
  | .tx _ => s.sel
  | .rx => s.sel

/-- The bytes a completed primitive adds to `rx` (10_state.md R25; 41_sequencer.md R139). -/
def State.received (s : State) : Prim → List Byte
  | .rx => [s.nextByte]
  | .sel => []
  | .desel => []
  | .tx _ => []

/-- The state with what a primitive takes from the transport taken. -/
def State.consumed (s : State) : Prim → State
  | .rx => s.takeByte
  | .sel => s
  | .desel => s
  | .tx _ => s

/-- The transport completes the primitive `p`: its event is recorded, chip-select and the received bytes follow it,
`pos` advances by one (41_sequencer.md R139; 10_state.md R23 to R25). -/
def State.perform (s : State) (job : Job) (prog : List Prim) (pos : Nat) (rx : List Byte) (p : Prim) : State :=
  { s.consumed p with
    seq := .run job prog (pos + 1) (rx ++ s.received p)
    sel := s.levelAfter p
    trace := s.trace ++ [s.eventOf p]
    stallIn := stallTick s.stallIn }

/-- Completion: the result is delivered, the state is `Idle`, nothing is recorded (41_sequencer.md R140). -/
def State.complete (s : State) (job : Job) (rx : List Byte) : State :=
  { s with seq := .idle, done := some (resultOf job rx), delivered := s.delivered ++ [resultOf job rx] }

/-- One step in state `Run`: complete at the end of the micro-program, else hand the next primitive to the transport
(41_sequencer.md R139, R140, R143). Without exclusive use of the bus nothing is said (60_exceptions.md R223). -/
def State.advance (s : State) (job : Job) (prog : List Prim) (pos : Nat) (rx : List Byte) :
    Host.Outcome State Fault Refusal :=
  if s.otherAgent then .refused .exclusiveBusBroken
  else
    match prog[pos]? with
    | none => .next (s.complete job rx)
    | some p => if s.stallIn = some 0 then .fault .transportNeverCompletes else .next (s.perform job prog pos rx p)

/-- The state with the sequencer started on a job: the operands latched, nothing received, nothing recorded, the
last result withdrawn (41_sequencer.md R138). -/
def State.start (s : State) (job : Job) (prog : List Prim) : State :=
  { s with seq := .run job prog 0 [], done := none }

/-- Acceptance of a job: in `Idle` the sequencer takes it (41_sequencer.md R138), in `Run` it waits and nothing
changes (R144). No operand value prevents acceptance (30_encoding.md R97). -/
def State.accept (s : State) (job : Job) (prog : List Prim) : Host.Outcome State Fault Refusal :=
  match s.seq with
  | .idle => .next (s.start job prog)
  | .run _ _ _ _ => .next s

/-- One invocation of the bracket primitive on its own (41_sequencer.md R130; log 7). -/
def State.invoke (s : State) (c : Call) : Host.Outcome State Fault Refusal :=
  s.accept (.bracket c) (progCall c)

/-- Reset: `Idle`, chip-select deasserted with its DESEL recorded if a bracket was open, an operation in flight
abandoned without a result (10_state.md R40; 70_reset_and_hazards.md R240, R241). The history and the inputs stay
as they are; DESIGN CHOICE, unsafe; log 4. -/
def State.applyReset (s : State) : State :=
  { s with
    seq := .idle
    sel := .deasserted
    done := none
    trace := match s.sel with
      | .asserted => s.trace ++ [.desel]
      | .deasserted => s.trace }

end Sys2Proof.Machine
end

