-- ==== Sys2Proof/Machine/ControlOps.lean ====
section
/-! DEFINITION. The control operations (45_control_ops.md R189 to R193). -/

namespace Sys2Proof.Machine

/-- 45_control_ops.md R190. -/
def execSuspend (s : State) : Host.Outcome State Fault Refusal :=
  s.accept (.operation .suspend) progSuspend

/-- 45_control_ops.md R191. -/
def execResume (s : State) : Host.Outcome State Fault Refusal :=
  s.accept (.operation .resume) progResume

/-- 45_control_ops.md R192. -/
def execPowerDown (s : State) : Host.Outcome State Fault Refusal :=
  s.accept (.operation .powerDown) progPowerDown

/-- 45_control_ops.md R193. -/
def execReleasePowerDown (s : State) : Host.Outcome State Fault Refusal :=
  s.accept (.operation .releasePowerDown) progReleasePowerDown

end Sys2Proof.Machine
end

