-- ==== Sys2Proof/Machine/ProgramEraseOps.lean ====
section
/-! DEFINITION. The program and erase operations (44_program_erase_ops.md). -/

namespace Sys2Proof.Machine

/-- 44_program_erase_ops.md R175, R176. -/
def execPageProgram (addr : AddrIn) (data : List Byte) (s : State) : Host.Outcome State Fault Refusal :=
  s.accept (.operation (.pageProgram addr data)) (progPageProgram addr data)

/-- 44_program_erase_ops.md R180. -/
def execSectorErase4KB (addr : AddrIn) (s : State) : Host.Outcome State Fault Refusal :=
  s.accept (.operation (.sectorErase4KB addr)) (progSectorErase4KB addr)

/-- 44_program_erase_ops.md R181. -/
def execBlockErase32KB (addr : AddrIn) (s : State) : Host.Outcome State Fault Refusal :=
  s.accept (.operation (.blockErase32KB addr)) (progBlockErase32KB addr)

/-- 44_program_erase_ops.md R182. -/
def execBlockErase64KB (addr : AddrIn) (s : State) : Host.Outcome State Fault Refusal :=
  s.accept (.operation (.blockErase64KB addr)) (progBlockErase64KB addr)

/-- 44_program_erase_ops.md R183. -/
def execChipErase (s : State) : Host.Outcome State Fault Refusal :=
  s.accept (.operation .chipErase) progChipErase

end Sys2Proof.Machine
end

