-- ==== Sys2Proof/Machine/ReadOps.lean ====
section
/-! DEFINITION. The read operations (43_read_ops.md). -/

namespace Sys2Proof.Machine

/-- 43_read_ops.md R160. -/
def execReadData (addr : AddrIn) (s : State) : Host.Outcome State Fault Refusal :=
  s.accept (.operation (.readData addr)) (progReadData addr)

/-- 43_read_ops.md R163. -/
def execFastReadData (addr : AddrIn) (n : Nat) (s : State) : Host.Outcome State Fault Refusal :=
  s.accept (.operation (.fastReadData addr n)) (progFastReadData addr n)

/-- 43_read_ops.md R166. -/
def execReadSecurityRegister (addr : AddrIn) (n : Nat) (s : State) : Host.Outcome State Fault Refusal :=
  s.accept (.operation (.readSecurityRegister addr n)) (progReadSecurityRegister addr n)

/-- 43_read_ops.md R168; the opcode 0xAB is preserved (R168, 70_reset_and_hazards.md R257). -/
def execDeviceID (s : State) : Host.Outcome State Fault Refusal :=
  s.accept (.operation .deviceID) progDeviceID

end Sys2Proof.Machine
end

