-- ==== Sys2Proof/Machine/StatusOps.lean ====
section
/-! DEFINITION. The status-register operations (42_status_ops.md). -/

namespace Sys2Proof.Machine

/-- 42_status_ops.md R150. -/
def execReadStatusRegisters (s : State) : Host.Outcome State Fault Refusal :=
  s.accept (.operation .readStatusRegisters) progReadStatusRegisters

/-- 42_status_ops.md R152. -/
def execWriteStatusRegisters (sr1 sr2 : Flags8) (s : State) : Host.Outcome State Fault Refusal :=
  s.accept (.operation (.writeStatusRegisters sr1 sr2)) (progWriteStatusRegisters sr1 sr2)

end Sys2Proof.Machine
end

