-- ==== Sys2Proof/Machine/WireOps.lean ====
section
/-! DEFINITION. The catalogue instructions of the wire, each one invocation of the bracket primitive
(41_sequencer.md R130; 30_encoding.md R90). The operations are made of these brackets; the host cannot issue one
alone (45_control_ops.md R195; log 7). -/

namespace Sys2Proof.Machine

/-- I1 (45_control_ops.md R195). -/
def execWireWriteEnable (s : State) : Host.Outcome State Fault Refusal :=
  s.invoke ⟨.writeEnable, 0, [], 0⟩

/-- I2: no operation issues it and the source gives it no shape, no operands and no semantics
(30_encoding.md R94; 45_control_ops.md R196). -/
def execWireVolatileSRWriteEnable (_ : State) : Host.Outcome State Fault Refusal :=
  .refused (.neverIssued (Wire.opcode .volatileSRWriteEnable))

/-- I3: as I2 (30_encoding.md R94; 45_control_ops.md R196). -/
def execWireWriteDisable (_ : State) : Host.Outcome State Fault Refusal :=
  .refused (.neverIssued (Wire.opcode .writeDisable))

/-- I4 (42_status_ops.md R150, R151). -/
def execWireReadStatusReg1 (s : State) : Host.Outcome State Fault Refusal :=
  s.invoke ⟨.readStatusReg1, 0, [], 1⟩

/-- I5 (42_status_ops.md R150, R151). -/
def execWireReadStatusReg2 (s : State) : Host.Outcome State Fault Refusal :=
  s.invoke ⟨.readStatusReg2, 0, [], 1⟩

/-- I6 (42_status_ops.md R152). -/
def execWireWriteStatusReg (p1 p2 : Byte) (s : State) : Host.Outcome State Fault Refusal :=
  s.invoke ⟨.writeStatusReg, 0, [p1, p2], 0⟩

/-- I7; at most a page of payload is sent (44_program_erase_ops.md R175; 30_encoding.md R87). -/
def execWirePageProgram (addr : FlashAddress) (out : List Byte) (s : State) : Host.Outcome State Fault Refusal :=
  s.invoke ⟨.pageProgram, addr, pagePayload out, 0⟩

/-- I8 (44_program_erase_ops.md R180). -/
def execWireSectorErase4KB (addr : FlashAddress) (s : State) : Host.Outcome State Fault Refusal :=
  s.invoke ⟨.sectorErase4KB, addr, [], 0⟩

/-- I9 (44_program_erase_ops.md R181). -/
def execWireBlockErase32KB (addr : FlashAddress) (s : State) : Host.Outcome State Fault Refusal :=
  s.invoke ⟨.blockErase32KB, addr, [], 0⟩

/-- I10 (44_program_erase_ops.md R182). -/
def execWireBlockErase64KB (addr : FlashAddress) (s : State) : Host.Outcome State Fault Refusal :=
  s.invoke ⟨.blockErase64KB, addr, [], 0⟩

/-- I11 (44_program_erase_ops.md R183). -/
def execWireChipErase (s : State) : Host.Outcome State Fault Refusal :=
  s.invoke ⟨.chipErase, 0, [], 0⟩

/-- I12 (45_control_ops.md R190). -/
def execWireEraseProgramSuspend (s : State) : Host.Outcome State Fault Refusal :=
  s.invoke ⟨.eraseProgramSuspend, 0, [], 0⟩

/-- I13 (45_control_ops.md R191). -/
def execWireEraseProgramResume (s : State) : Host.Outcome State Fault Refusal :=
  s.invoke ⟨.eraseProgramResume, 0, [], 0⟩

/-- I14 (45_control_ops.md R192). -/
def execWirePowerDown (s : State) : Host.Outcome State Fault Refusal :=
  s.invoke ⟨.powerDown, 0, [], 0⟩

/-- I15 (43_read_ops.md R160). -/
def execWireReadData (addr : FlashAddress) (s : State) : Host.Outcome State Fault Refusal :=
  s.invoke ⟨.readData, addr, [], 1⟩

/-- I16 (43_read_ops.md R163). -/
def execWireFastRead (addr : FlashAddress) (n : Nat) (s : State) : Host.Outcome State Fault Refusal :=
  s.invoke ⟨.fastRead, addr, [], n⟩

/-- I17 (45_control_ops.md R193). -/
def execWireReleasePowerDown (s : State) : Host.Outcome State Fault Refusal :=
  s.invoke ⟨.releasePowerDown, 0, [], 0⟩

/-- I18 (43_read_ops.md R166). -/
def execWireReadSecurityRegister (addr : FlashAddress) (n : Nat) (s : State) : Host.Outcome State Fault Refusal :=
  s.invoke ⟨.readSecurityRegister, addr, [], n⟩

/-- I19 (43_read_ops.md R168). -/
def execWireDeviceIdProbe (s : State) : Host.Outcome State Fault Refusal :=
  s.invoke ⟨.deviceIdProbe, 0, [], 1⟩

end Sys2Proof.Machine
end

