-- ==== Sys2Proof/Machine/Dispatch.lean ====
section
/-! DEFINITION. One arm per instruction: its meaning. -/

namespace Sys2Proof.Machine

/-- What an instruction does when the sequencer is given it (41_sequencer.md R138, R144). -/
def exec (i : Instr) (s : State) : Host.Outcome State Fault Refusal :=
  match i with
  -- the operations of the command port (30_encoding.md R92)
  | .readStatusRegisters => Sys2Proof.Machine.execReadStatusRegisters s
  | .writeStatusRegisters sr1 sr2 => Sys2Proof.Machine.execWriteStatusRegisters sr1 sr2 s
  | .readData addr => Sys2Proof.Machine.execReadData addr s
  | .fastReadData addr n => Sys2Proof.Machine.execFastReadData addr n s
  | .pageProgram addr data => Sys2Proof.Machine.execPageProgram addr data s
  | .readSecurityRegister addr n => Sys2Proof.Machine.execReadSecurityRegister addr n s
  | .sectorErase4KB addr => Sys2Proof.Machine.execSectorErase4KB addr s
  | .blockErase32KB addr => Sys2Proof.Machine.execBlockErase32KB addr s
  | .blockErase64KB addr => Sys2Proof.Machine.execBlockErase64KB addr s
  | .chipErase => Sys2Proof.Machine.execChipErase s
  | .suspend => Sys2Proof.Machine.execSuspend s
  | .resume => Sys2Proof.Machine.execResume s
  | .powerDown => Sys2Proof.Machine.execPowerDown s
  | .releasePowerDown => Sys2Proof.Machine.execReleasePowerDown s
  | .deviceID => Sys2Proof.Machine.execDeviceID s
  -- the catalogue instructions of the wire (30_encoding.md R90)
  | .wireWriteEnable => Sys2Proof.Machine.execWireWriteEnable s
  | .wireVolatileSRWriteEnable => Sys2Proof.Machine.execWireVolatileSRWriteEnable s
  | .wireWriteDisable => Sys2Proof.Machine.execWireWriteDisable s
  | .wireReadStatusReg1 => Sys2Proof.Machine.execWireReadStatusReg1 s
  | .wireReadStatusReg2 => Sys2Proof.Machine.execWireReadStatusReg2 s
  | .wireWriteStatusReg p1 p2 => Sys2Proof.Machine.execWireWriteStatusReg p1 p2 s
  | .wirePageProgram addr out => Sys2Proof.Machine.execWirePageProgram addr out s
  | .wireSectorErase4KB addr => Sys2Proof.Machine.execWireSectorErase4KB addr s
  | .wireBlockErase32KB addr => Sys2Proof.Machine.execWireBlockErase32KB addr s
  | .wireBlockErase64KB addr => Sys2Proof.Machine.execWireBlockErase64KB addr s
  | .wireChipErase => Sys2Proof.Machine.execWireChipErase s
  | .wireEraseProgramSuspend => Sys2Proof.Machine.execWireEraseProgramSuspend s
  | .wireEraseProgramResume => Sys2Proof.Machine.execWireEraseProgramResume s
  | .wirePowerDown => Sys2Proof.Machine.execWirePowerDown s
  | .wireReadData addr => Sys2Proof.Machine.execWireReadData addr s
  | .wireFastRead addr n => Sys2Proof.Machine.execWireFastRead addr n s
  | .wireReleasePowerDown => Sys2Proof.Machine.execWireReleasePowerDown s
  | .wireReadSecurityRegister addr n => Sys2Proof.Machine.execWireReadSecurityRegister addr n s
  | .wireDeviceIdProbe => Sys2Proof.Machine.execWireDeviceIdProbe s

end Sys2Proof.Machine
end

