-- ==== Sys2Proof/WellFormed.lean ====
section
/-! DEFINITION. Which instructions the hardware can be given: a byte count fits its operand (00_scope.md R6;
10_state.md R22) and the payload of a PageProgram bracket is at most a page (30_encoding.md R87). Nothing else is
ill-formed: every operand value is used as it is (30_encoding.md R97). -/

namespace Sys2Proof

/-- A byte count that the command port can carry (00_scope.md R6; 10_state.md R22). -/
abbrev CountFits (n : Nat) : Bool := decide (n < 2 ^ Config.lenBits)

/-- The check. No operation or bracket is refused for failing it: `exec` runs an ill-formed instruction too
(30_encoding.md R97); it is what the encoder needs so that no count is cut. -/
def Instr.wellFormed : Instr → Bool
  | .readStatusRegisters => true
  | .writeStatusRegisters _ _ => true
  | .readData _ => true
  | .fastReadData _ n => CountFits n
  | .pageProgram _ data => CountFits data.length
  | .readSecurityRegister _ n => CountFits n
  | .sectorErase4KB _ => true
  | .blockErase32KB _ => true
  | .blockErase64KB _ => true
  | .chipErase => true
  | .suspend => true
  | .resume => true
  | .powerDown => true
  | .releasePowerDown => true
  | .deviceID => true
  | .wireWriteEnable => true
  | .wireVolatileSRWriteEnable => true
  | .wireWriteDisable => true
  | .wireReadStatusReg1 => true
  | .wireReadStatusReg2 => true
  | .wireWriteStatusReg _ _ => true
  | .wirePageProgram _ out => decide (out.length ≤ Config.pageClamp)
  | .wireSectorErase4KB _ => true
  | .wireBlockErase32KB _ => true
  | .wireBlockErase64KB _ => true
  | .wireChipErase => true
  | .wireEraseProgramSuspend => true
  | .wireEraseProgramResume => true
  | .wirePowerDown => true
  | .wireReadData _ => true
  | .wireFastRead _ n => CountFits n
  | .wireReleasePowerDown => true
  | .wireReadSecurityRegister _ n => CountFits n
  | .wireDeviceIdProbe => true

/-- The check as a proposition. -/
abbrev Instr.WellFormed (i : Instr) : Prop := i.wellFormed = true

end Sys2Proof
end

