-- ==== Sys2Proof/Decode.lean ====
section
/-! DEFINITION. Decoding, total on any frame and rejecting by name, then encoding: of an operation, the request on
the command port (30_encoding.md R92, R93); of a catalogue instruction, its bracket on the wire (30_encoding.md
R80 to R84, R90, R91). Last the host's `decodeTableWord`. -/

namespace Sys2Proof

open Sys2Proof.Machine

/-- Why a frame is no instruction. -/
inductive DecodeError where
  /-- The selector names no operation (30_encoding.md R93). -/
  | noOperation (selector : BitVec 4)
  /-- The primitives are no bracket: SEL, an opcode, transmitted bytes, received bytes, DESEL (R80, R81). -/
  | notABracket
  /-- The first byte of the bracket is no opcode of the catalogue (R90). -/
  | noSuchOpcode (opcode : Byte)
  /-- The bytes after the opcode have not the layout of the opcode's shape, or more payload than any operation
  moves (R83, R87). -/
  | wrongLayout (opcode : Byte)
deriving DecidableEq, Repr

/-- The operation a request on the command port names, with the operands that operation reads
(30_encoding.md R92, R93; 10_state.md R22). -/
def decodeRequest (p : PortRequest) : Except DecodeError Request :=
  match p.selector.toNat with
  | 0 => .ok .readStatusRegisters
  | 1 => .ok (.writeStatusRegisters p.sr1 p.sr2)
  | 2 => .ok (.readData p.addr)
  | 3 => .ok (.fastReadData p.addr p.n.toNat)
  | 4 => .ok (.pageProgram p.addr p.data)
  | 5 => .ok (.readSecurityRegister p.addr p.n.toNat)
  | 6 => .ok (.sectorErase4KB p.addr)
  | 7 => .ok (.blockErase32KB p.addr)
  | 8 => .ok (.blockErase64KB p.addr)
  | 9 => .ok .chipErase
  | 10 => .ok .suspend
  | 11 => .ok .resume
  | 12 => .ok .powerDown
  | 13 => .ok .releasePowerDown
  | 14 => .ok .deviceID
  | _ => .error (.noOperation p.selector)

/-- A request as an instruction of the operation level. -/
def Instr.ofRequest : Request → Instr
  | .readStatusRegisters => .readStatusRegisters
  | .writeStatusRegisters sr1 sr2 => .writeStatusRegisters sr1 sr2
  | .readData addr => .readData addr
  | .fastReadData addr n => .fastReadData addr n
  | .pageProgram addr data => .pageProgram addr data
  | .readSecurityRegister addr n => .readSecurityRegister addr n
  | .sectorErase4KB addr => .sectorErase4KB addr
  | .blockErase32KB addr => .blockErase32KB addr
  | .blockErase64KB addr => .blockErase64KB addr
  | .chipErase => .chipErase
  | .suspend => .suspend
  | .resume => .resume
  | .powerDown => .powerDown
  | .releasePowerDown => .releasePowerDown
  | .deviceID => .deviceID

/-- The body of a bracket after its opcode: transmitted bytes, then received bytes, then DESEL; gives the bytes
and the count (30_encoding.md R80, R81). -/
def parseBody : List Prim → Option (List Byte × Nat)
  | [.desel] => some ([], 0)
  | .tx b :: ps =>
    match parseBody ps with
    | some (t, n) => some (b :: t, n)
    | none => none
  | .rx :: ps =>
    match parseBody ps with
    | some ([], n) => some ([], n + 1)
    | _ => none
  | _ => none

/-- Layout of shape `NONE`: nothing after the opcode (30_encoding.md R83). -/
def layoutNone (opcode : Byte) (t : List Byte) (n : Nat) (i : Instr) : Except DecodeError Instr :=
  match t, n with
  | [], 0 => .ok i
  | _, _ => .error (.wrongLayout opcode)

/-- Layout of shape `DIN` with one byte (30_encoding.md R83, R87). -/
def layoutIn1 (opcode : Byte) (t : List Byte) (n : Nat) (i : Instr) : Except DecodeError Instr :=
  match t, n with
  | [], 1 => .ok i
  | _, _ => .error (.wrongLayout opcode)

/-- Layout of shape `ADDR` (30_encoding.md R83). -/
def layoutAddr (opcode : Byte) (t : List Byte) (n : Nat) (i : FlashAddress → Instr) : Except DecodeError Instr :=
  match t, n with
  | [a2, a1, a0], 0 => .ok (i (joinAddr a2 a1 a0))
  | _, _ => .error (.wrongLayout opcode)

/-- Layout of shape `ADDR_DIN` with one byte (30_encoding.md R83, R87). -/
def layoutAddrIn1 (opcode : Byte) (t : List Byte) (n : Nat) (i : FlashAddress → Instr) : Except DecodeError Instr :=
  match t, n with
  | [a2, a1, a0], 1 => .ok (i (joinAddr a2 a1 a0))
  | _, _ => .error (.wrongLayout opcode)

/-- Layout of shape `ADDR_DMY_DIN`: one dummy byte, then a count some request can carry (30_encoding.md R83, R86). -/
def layoutAddrDummyIn (opcode : Byte) (t : List Byte) (n : Nat) (i : FlashAddress → Nat → Instr) :
    Except DecodeError Instr :=
  match t with
  | [a2, a1, a0, d] =>
    if d = Config.dummyValue ∧ CountFits n = true then .ok (i (joinAddr a2 a1 a0) n) else .error (.wrongLayout opcode)
  | _ => .error (.wrongLayout opcode)

/-- Layout of the PageProgram bracket: at most a page of payload (30_encoding.md R83, R87). -/
def layoutPage (opcode : Byte) (t : List Byte) (n : Nat) : Except DecodeError Instr :=
  match t, n with
  | a2 :: a1 :: a0 :: out, 0 =>
    if out.length ≤ Config.pageClamp then .ok (.wirePageProgram (joinAddr a2 a1 a0) out) else .error (.wrongLayout opcode)
  | _, _ => .error (.wrongLayout opcode)

/-- Layout of the WriteStatusReg bracket: two bytes (30_encoding.md R87). -/
def layoutOut2 (opcode : Byte) (t : List Byte) (n : Nat) : Except DecodeError Instr :=
  match t, n with
  | [p1, p2], 0 => .ok (.wireWriteStatusReg p1 p2)
  | _, _ => .error (.wrongLayout opcode)

/-- The two brackets that open with 0xAB, told apart by their length (30_encoding.md R91). -/
def layoutAB (opcode : Byte) (t : List Byte) (n : Nat) : Except DecodeError Instr :=
  match t, n with
  | [], 0 => .ok .wireReleasePowerDown
  | [d0, d1, d2], 1 =>
    if d0 = Config.dummyValue ∧ d1 = Config.dummyValue ∧ d2 = Config.dummyValue then .ok .wireDeviceIdProbe
    else .error (.wrongLayout opcode)
  | _, _ => .error (.wrongLayout opcode)

/-- The catalogue instruction of an opcode byte, the transmitted bytes after it and the number of received bytes
(30_encoding.md R84, R90). The source gives 0x50 and 0x04 no shape, so only the opcode byte alone is read as
them (R94); DESIGN CHOICE, log 7. -/
def decodeWire (opcode : Byte) (t : List Byte) (n : Nat) : Except DecodeError Instr :=
  match opcode.toNat with
  | 0x06 => layoutNone opcode t n .wireWriteEnable
  | 0x50 => layoutNone opcode t n .wireVolatileSRWriteEnable
  | 0x04 => layoutNone opcode t n .wireWriteDisable
  | 0x05 => layoutIn1 opcode t n .wireReadStatusReg1
  | 0x35 => layoutIn1 opcode t n .wireReadStatusReg2
  | 0x01 => layoutOut2 opcode t n
  | 0x02 => layoutPage opcode t n
  | 0x20 => layoutAddr opcode t n .wireSectorErase4KB
  | 0x52 => layoutAddr opcode t n .wireBlockErase32KB
  | 0xD8 => layoutAddr opcode t n .wireBlockErase64KB
  | 0xC7 => layoutNone opcode t n .wireChipErase
  | 0x75 => layoutNone opcode t n .wireEraseProgramSuspend
  | 0x7A => layoutNone opcode t n .wireEraseProgramResume
  | 0xB9 => layoutNone opcode t n .wirePowerDown
  | 0x03 => layoutAddrIn1 opcode t n .wireReadData
  | 0x0B => layoutAddrDummyIn opcode t n .wireFastRead
  | 0xAB => layoutAB opcode t n
  | 0x48 => layoutAddrDummyIn opcode t n .wireReadSecurityRegister
  | _ => .error (.noSuchOpcode opcode)

/-- A bracket read as an observer of the bus reads it: SEL, the opcode, the rest according to the catalogue, DESEL
(30_encoding.md R84). -/
def decodeBracket : List Prim → Except DecodeError Instr
  | .sel :: .tx opcode :: ps =>
    match parseBody ps with
    | some (t, n) => decodeWire opcode t n
    | none => .error .notABracket
  | _ => .error .notABracket

/-- The decoder. -/
def decode : Frame → Except DecodeError Instr
  | .request p =>
    match decodeRequest p with
    | .ok r => .ok (Instr.ofRequest r)
    | .error e => .error e
  | .bracket ps => decodeBracket ps

/-- A request with the given selector and every operand input zero or empty. -/
def blankRequest (selector : BitVec 4) : PortRequest := ⟨selector, 0, 0, [], Flags8.clear, Flags8.clear⟩

/-- The request the host presents for an operation: its selector and the operands of that operation
(30_encoding.md R92, R93). The inputs the operation does not read are zero; DESIGN CHOICE, log 2. -/
def encodeRequest : Request → PortRequest
  | .readStatusRegisters => blankRequest 0#4
  | .writeStatusRegisters f1 f2 => { blankRequest 1#4 with sr1 := f1, sr2 := f2 }
  | .readData a => { blankRequest 2#4 with addr := a }
  | .fastReadData a k => { blankRequest 3#4 with addr := a, n := BitVec.ofNat _ k }
  | .pageProgram a d => { blankRequest 4#4 with addr := a, data := d }
  | .readSecurityRegister a k => { blankRequest 5#4 with addr := a, n := BitVec.ofNat _ k }
  | .sectorErase4KB a => { blankRequest 6#4 with addr := a }
  | .blockErase32KB a => { blankRequest 7#4 with addr := a }
  | .blockErase64KB a => { blankRequest 8#4 with addr := a }
  | .chipErase => blankRequest 9#4
  | .suspend => blankRequest 10#4
  | .resume => blankRequest 11#4
  | .powerDown => blankRequest 12#4
  | .releasePowerDown => blankRequest 13#4
  | .deviceID => blankRequest 14#4

/-- A bracket without operands. -/
def bareBracket (i : Wire) (nin : Nat) : Frame := .bracket (bracketPrims i (0 : FlashAddress) [] nin)

/-- The encoder: the request of an operation, the bracket of a catalogue instruction (30_encoding.md R83, R92). -/
def encode : Instr → Frame
  | .readStatusRegisters => .request (encodeRequest .readStatusRegisters)
  | .writeStatusRegisters sr1 sr2 => .request (encodeRequest (.writeStatusRegisters sr1 sr2))
  | .readData addr => .request (encodeRequest (.readData addr))
  | .fastReadData addr n => .request (encodeRequest (.fastReadData addr n))
  | .pageProgram addr data => .request (encodeRequest (.pageProgram addr data))
  | .readSecurityRegister addr n => .request (encodeRequest (.readSecurityRegister addr n))
  | .sectorErase4KB addr => .request (encodeRequest (.sectorErase4KB addr))
  | .blockErase32KB addr => .request (encodeRequest (.blockErase32KB addr))
  | .blockErase64KB addr => .request (encodeRequest (.blockErase64KB addr))
  | .chipErase => .request (encodeRequest .chipErase)
  | .suspend => .request (encodeRequest .suspend)
  | .resume => .request (encodeRequest .resume)
  | .powerDown => .request (encodeRequest .powerDown)
  | .releasePowerDown => .request (encodeRequest .releasePowerDown)
  | .deviceID => .request (encodeRequest .deviceID)
  | .wireWriteEnable => bareBracket .writeEnable 0
  | .wireVolatileSRWriteEnable => bareBracket .volatileSRWriteEnable 0
  | .wireWriteDisable => bareBracket .writeDisable 0
  | .wireReadStatusReg1 => bareBracket .readStatusReg1 1
  | .wireReadStatusReg2 => bareBracket .readStatusReg2 1
  | .wireWriteStatusReg p1 p2 => .bracket (bracketPrims .writeStatusReg (0 : FlashAddress) [p1, p2] 0)
  | .wirePageProgram addr out => .bracket (bracketPrims .pageProgram addr out 0)
  | .wireSectorErase4KB addr => .bracket (bracketPrims .sectorErase4KB addr [] 0)
  | .wireBlockErase32KB addr => .bracket (bracketPrims .blockErase32KB addr [] 0)
  | .wireBlockErase64KB addr => .bracket (bracketPrims .blockErase64KB addr [] 0)
  | .wireChipErase => bareBracket .chipErase 0
  | .wireEraseProgramSuspend => bareBracket .eraseProgramSuspend 0
  | .wireEraseProgramResume => bareBracket .eraseProgramResume 0
  | .wirePowerDown => bareBracket .powerDown 0
  | .wireReadData addr => .bracket (bracketPrims .readData addr [] 1)
  | .wireFastRead addr n => .bracket (bracketPrims .fastRead addr [] n)
  | .wireReleasePowerDown => bareBracket .releasePowerDown 0
  | .wireReadSecurityRegister addr n => .bracket (bracketPrims .readSecurityRegister addr [] n)
  | .wireDeviceIdProbe => bareBracket .deviceIdProbe 1

/-- Whether an instruction is one of the 15 operations of the command port (30_encoding.md R92). -/
def Instr.isOperation (i : Instr) : Bool :=
  match encode i with
  | .request _ => true
  | .bracket _ => false

/-- How many transmitted bytes follow an opcode byte and how many bytes are received, where the word holds the
opcode and operand bytes but no payload: address and dummy bytes, the two bytes of WriteStatusReg, the fixed
one-byte payloads (30_encoding.md R83, R87). 0xAB alone is ReleasePowerDown (R91). -/
def tableLayout (nbits opcode : Nat) : Nat × Nat :=
  match opcode with
  | 0x05 => (0, 1)
  | 0x35 => (0, 1)
  | 0x01 => (2, 0)
  | 0x02 => (3, 0)
  | 0x20 => (3, 0)
  | 0x52 => (3, 0)
  | 0xD8 => (3, 0)
  | 0x03 => (3, 1)
  | 0x0B => (4, 0)
  | 0x48 => (4, 0)
  | 0xAB => if nbits ≤ 8 then (0, 0) else (3, 1)
  | _ => (0, 0)

/-- The frame of a word numbered as opcode_table.json numbers it, bits above `nbits` zero. A word below 16 is read
as an operation's selector, since that is what the command port takes; a larger one as the first byte of a
bracket and the operand bytes after it. DESIGN CHOICE, log 12. -/
def tableFrame (nbits w : Nat) : Frame :=
  let v := w % 2 ^ nbits
  if v < 16 then .request (blankRequest (BitVec.ofNat 4 v))
  else
    let layout := tableLayout nbits (v % 256)
    .bracket ([.sel, .tx (BitVec.ofNat 8 v)]
      ++ (List.range layout.1).map (fun k => .tx (BitVec.ofNat 8 (v / 256 ^ (k + 1))))
      ++ List.replicate layout.2 .rx ++ [.desel])

/-- What the decoder reads from a word numbered as opcode_table.json numbers it. -/
def decodeTableWord (nbits w : Nat) : Option Instr :=
  match decode (tableFrame nbits w) with
  | .ok i => some i
  | .error _ => none

end Sys2Proof
end

