-- ==== Sys2Proof/Machine/Fetch.lean ====
section
/-! DEFINITION. What the sequencer takes next in `Idle` (41_sequencer.md R138; 60_exceptions.md R222), and placing a
word there for the host. The block fetches no instruction from any memory (20_memory.md R71). -/

namespace Sys2Proof.Machine

/-- The instruction presented next and the state past it: a pending direct invocation, else the oldest request of
the port. None where nothing is presented, or where what is presented is no instruction: a selector that names no
operation is not accepted and stays where it is (30_encoding.md R93; log 8). -/
def State.fetched (s : State) : Option (Instr × State) :=
  match s.call with
  | some ps =>
    match decode (.bracket ps) with
    | .ok i => some (i, { s with call := none })
    | .error _ => none
  | none =>
    match s.port with
    | [] => none
    | p :: ps =>
      match decode (.request p) with
      | .ok i => some (i, { s with port := ps })
      | .error _ => none

/-- The state with a frame presented next: `Idle`, not in reset, the request at the head of the port or the bracket
as a pending invocation. -/
def State.present (s : State) : Frame → State
  | .request p => { s with seq := .idle, rst := false, call := none, port := p :: s.port }
  | .bracket ps => { s with seq := .idle, rst := false, call := some ps }

end Sys2Proof.Machine
end

