-- ==== Sys2Proof/Machine/Step.lean ====
section
/-! DEFINITION. One step of the machine (41_sequencer.md R138 to R144; 70_reset_and_hazards.md R240, R241). -/

namespace Sys2Proof.Machine

/-- Reset wins over everything (60_exceptions.md R212); in `Run` the next primitive or the completion; in `Idle` the
instruction presented next is accepted, and with nothing to accept the block waits and emits nothing. -/
def step (s : State) : Host.Outcome State Fault Refusal :=
  if s.rst then .next s.applyReset
  else
    match s.seq with
    | .run job prog pos rx => s.advance job prog pos rx
    | .idle =>
      match s.fetched with
      | some (i, t) => exec i t
      | none => .next s

/-- The state in which the word is what the next step runs: the request of an operation at the head of the command
port, or the bracket of a catalogue instruction as a pending invocation (logs 7, 11, 12). -/
def State.withFetchWord (s : State) (nbits w : Nat) : State := s.present (tableFrame nbits w)

end Sys2Proof.Machine
end

