-- ==== Sys2Proof/Machine/Observe.lean ====
section
/-! DEFINITION. What an observer of the bus reads from a trace: its primitives, the chip-select level, the bytes
received, the opening bytes of its brackets (00_scope.md R12; 30_encoding.md R84, R96; 41_sequencer.md R131, R141),
and the compact way of writing a trace down (30_encoding.md R101). The block reads none of it. -/

namespace Sys2Proof

/-- The primitive whose completion an event records (41_sequencer.md R132). -/
def Event.prim : Event → Prim
  | .sel => .sel
  | .desel => .desel
  | .tx b => .tx b
  | .rx _ => .rx

end Sys2Proof

namespace Sys2Proof.Machine

/-- A trace without the values received: what depends on the request alone (41_sequencer.md R141). -/
def skeleton (es : List Event) : List Prim := es.map Event.prim

/-- The bytes received in a trace, in order. -/
def receivedBytes : List Event → List Byte
  | [] => []
  | .rx b :: es => b :: receivedBytes es
  | .sel :: es => receivedBytes es
  | .desel :: es => receivedBytes es
  | .tx _ :: es => receivedBytes es

/-- The events of a micro-program whose received bytes are answered by the given ones, in order; it ends where an
answer is wanting (41_sequencer.md R139). -/
def playback : List Prim → List Byte → List Event
  | [], _ => []
  | .sel :: ps, bs => .sel :: playback ps bs
  | .desel :: ps, bs => .desel :: playback ps bs
  | .tx b :: ps, bs => .tx b :: playback ps bs
  | .rx :: ps, b :: bs => .rx b :: playback ps bs
  | .rx :: _, [] => []

/-- The chip-select level after the given primitives, from the given level; none where SEL and DESEL do not
alternate or a byte moves outside a bracket (41_sequencer.md R131, R141). -/
def busLevel : ChipSelect → List Prim → Option ChipSelect
  | l, [] => some l
  | .deasserted, .sel :: ps => busLevel .asserted ps
  | .asserted, .desel :: ps => busLevel .deasserted ps
  | .asserted, .tx _ :: ps => busLevel .asserted ps
  | .asserted, .rx :: ps => busLevel .asserted ps
  | _, _ => none

/-- The byte transmitted first, if the first primitive transmits one. -/
def firstTx : List Prim → List Byte
  | .tx b :: _ => [b]
  | _ => []

/-- The bytes transmitted directly after a SEL: the opcode bytes of the brackets (30_encoding.md R81, R96). -/
def openers : List Prim → List Byte
  | [] => []
  | .sel :: ps => firstTx ps ++ openers ps
  | .desel :: ps => openers ps
  | .tx _ :: ps => openers ps
  | .rx :: ps => openers ps

/-- A hexadecimal digit. -/
def hexDigit (n : Nat) : Char :=
  ['0', '1', '2', '3', '4', '5', '6', '7', '8', '9', 'A', 'B', 'C', 'D', 'E', 'F'].getD n '?'

/-- A byte as two hexadecimal digits. -/
def hexByte (b : Byte) : List Char := [hexDigit (b.toNat / 16), hexDigit (b.toNat % 16)]

/-- The compact bracket form of a trace, `[06] [02 00 10 00 AA]` with `<` before received bytes; `due` says whether a
space comes before the next item (30_encoding.md R101; 00_scope.md R12). -/
def compact (due : Bool) : List Event → List Char
  | [] => []
  | .sel :: es => (if due then [' '] else []) ++ '[' :: compact false es
  | .desel :: es => ']' :: compact true es
  | .tx b :: es => (if due then [' '] else []) ++ hexByte b ++ compact true es
  | .rx b :: es => (if due then [' '] else []) ++ '<' :: hexByte b ++ compact true es

end Sys2Proof.Machine
end

