-- ==== Sys2Proof/Safety.lean ====
section
/-! DEFINITION. The named premises, what a run of an operation to its end is, and the invariant of the sequencer. -/

namespace Sys2Proof.Machine

/-- The premise `ExclusiveBus` (60_exceptions.md R223). -/
abbrev ExclusiveBus (s : State) : Prop := s.otherAgent = false

/-- The transport completes at least the next `n` primitives: the liveness assumption of 70_reset_and_hazards.md R263,
R242(a), for as long as it is needed. A transport that hangs after them is not shut out (41_sequencer.md R143; log 5). -/
abbrev TransportCompletes (n : Nat) (s : State) : Prop := (s.stallIn.all fun k => decide (n ≤ k)) = true

/-- The reset input is released. -/
abbrev NotInReset (s : State) : Prop := s.rst = false

/-- All three premises under which an operation of `n` primitives runs to its end. -/
abbrev Ready (n : Nat) (s : State) : Prop := ExclusiveBus s ∧ TransportCompletes n s ∧ NotInReset s

/-- What the spec says of an operation from acceptance to completion: `exec i` accepts, the request latched with the
micro-program `prog` and nothing recorded (41_sequencer.md R138); `prog.length + 1` steps later the state is `Idle`
with chip-select deasserted, the trace has grown by the events of `prog` with some received bytes `bs`, and `done`
shows the result of `bs` (R139, R140; 60_exceptions.md R222). Where the transport's script has enough answers, `bs`
are those: that a scripted oracle (R139) stands in a field of the state is the model's own (log 1). -/
def Performs (i : Instr) (r : Request) (prog : List Prim) (result : List Byte → Result) (s : State) : Prop :=
  ∃ (t u : State) (bs : List Byte),
    exec i s = .next t ∧ t.seq = .run (.operation r) prog 0 [] ∧ t.trace = s.trace ∧ t.sel = s.sel ∧
      bs.length = prog.count .rx ∧
      (prog.count .rx ≤ s.answers.length → bs = s.answers.take (prog.count .rx)) ∧
      Host.Core.run Sys2Proof.core (prog.length + 1) t = .next u ∧
      u.seq = .idle ∧ u.sel = .deasserted ∧ u.trace = s.trace ++ playback prog bs ∧ u.done = some (result bs)

/-- As `Performs`, for any job and with the whole of the two states: everything not named is as it was, the requests
waiting on the port and the inputs among it; of a transport that completes only so many primitives, the completed ones
are counted off. What happens to `done` at acceptance, `delivered`, `answers` and `draws`, and `stallIn` are the model's
own (logs 1, 3 and 5). -/
def RunsToTheEnd (i : Instr) (job : Job) (prog : List Prim) (result : List Byte → Result) (s : State) : Prop :=
  exec i s = .next { s with seq := .run job prog 0 [], done := none } ∧
    ∃ bs : List Byte, bs.length = prog.count .rx ∧
      (prog.count .rx ≤ s.answers.length → bs = s.answers.take (prog.count .rx)) ∧
      Host.Core.run Sys2Proof.core (prog.length + 1) { s with seq := .run job prog 0 [], done := none } = .next { s with
        seq := .idle
        sel := .deasserted
        done := some (result bs)
        delivered := s.delivered ++ [result bs]
        trace := s.trace ++ playback prog bs
        answers := s.answers.drop (prog.count .rx)
        draws := s.draws + (prog.count .rx - s.answers.length)
        stallIn := s.stallIn.map (· - prog.length) }

/-- The invariant of the sequencer, in every state and at every step, reset included: SEL and DESEL alternate in the
trace and leave chip-select as it stands; in `Idle` it is deasserted (10_state.md R24; 41_sequencer.md R141); in `Run`
the micro-program is that of the latched job, `pos` is within it (10_state.md R23), the trace ends with the events of
its first `pos` primitives and before them holds whole brackets only, `rx` holds the bytes of those events (R25), and
no result is shown: that `done` is withdrawn at acceptance and stays so until completion is the model's own (log 3). -/
def SequencerInv (s : State) : Prop :=
  busLevel .deasserted (skeleton s.trace) = some s.sel ∧
    match s.seq with
    | .idle => s.sel = .deasserted
    | .run job prog pos rx =>
      job.issuable = true ∧ prog = job.program ∧ pos ≤ prog.length ∧ s.done = none ∧
        ∃ past now : List Event, s.trace = past ++ now ∧ busLevel .deasserted (skeleton past) = some .deasserted ∧
          skeleton now = prog.take pos ∧ receivedBytes now = rx

/-- Every bracket of the trace opens with one of the 16 bytes the block can emit (30_encoding.md R96). -/
def OpenersEmittable (s : State) : Prop := ∀ b ∈ openers (skeleton s.trace), b ∈ emittable

/-- The opcodes of the write-class brackets (41_sequencer.md R136). -/
def writeOpcodes : List Byte := [0x01#8, 0x02#8, 0x20#8, 0x52#8, 0xD8#8, 0xC7#8]

/-- In a list of bracket openers that follows the opener `previous`, every write-class opcode comes directly after the
opener 0x06 of a WriteEnable bracket (41_sequencer.md R136; 70_reset_and_hazards.md R250). -/
def armedAfter : Option Byte → List Byte → Prop
  | _, [] => True
  | previous, b :: bs => (b ∈ writeOpcodes → previous = some 0x06#8) ∧ armedAfter (some b) bs

/-- Every write-class bracket of the trace comes directly after a WriteEnable bracket. -/
def WritesArmed (s : State) : Prop := armedAfter none (openers (skeleton s.trace))

/-- The job in hand, if any, is an operation and no direct invocation is pending: what holds where only the host's
requests are served (45_control_ops.md R195; log 7). -/
def HostOnly (s : State) : Prop :=
  s.call = none ∧
    match s.seq with
    | .idle => True
    | .run job _ _ _ => ∃ r : Request, job = .operation r

end Sys2Proof.Machine
end

