-- ==== Sys2Proof/Certificates/Slice0/Obligations.lean ====
section
/-! DEFINITION. The statements for the provers. Each docstring names the rule of spec/ it formalises. Acceptance, the
steps and `pos` are the spec's own framing (92_eei_decisions.md D1, D2), as its rules R21 to R25 and R138 to R140
give it; the selector numbers are its decision D11; that a scripted transport's answers stand in a field of the state
is the model's own (log 1). The hardware has no general registers, no flags, no memory and no exceptions, so a frame
here speaks of the fields of `State`. -/

open Sys2Proof Sys2Proof.Machine

/-! ### The 15 operations (42 to 45) -/

/-- 42_status_ops.md R150: selector 0, two one-byte reads, 0x05 first (decision D6 of the spec). -/
def Obligations.ReadStatusRegistersReadsBothRegisters : Prop :=
  (∀ p : PortRequest, p.selector = 0#4 → decode (.request p) = .ok .readStatusRegisters) ∧
  ∀ s : State, s.seq = .idle → Ready 8 s →
    Performs .readStatusRegisters .readStatusRegisters
      [.sel, .tx 0x05#8, .rx, .desel, .sel, .tx 0x35#8, .rx, .desel]
      (fun bs => match bs with | [s1, s2] => .flags (srDec s1) (srDec s2) | _ => .noValue) s

/-- 42_status_ops.md R152: selector 1, the write-enable bracket, then one bracket with the byte of Status Register 1
first (decision D7 of the spec). -/
def Obligations.WriteStatusRegistersSendsBothBytes : Prop :=
  (∀ p : PortRequest, p.selector = 1#4 → decode (.request p) = .ok (.writeStatusRegisters p.sr1 p.sr2)) ∧
  ∀ (sr1 sr2 : Flags8) (s : State), s.seq = .idle → Ready 8 s →
    Performs (.writeStatusRegisters sr1 sr2) (.writeStatusRegisters sr1 sr2)
      [.sel, .tx 0x06#8, .desel, .sel, .tx 0x01#8, .tx (srEnc sr1), .tx (srEnc sr2), .desel]
      (fun _ => .noValue) s

/-- 43_read_ops.md R160: selector 2 (decision D11 of the spec), one byte at any address; the script's answers stand in
a field of the model's own (log 1). -/
def Obligations.ReadDataReadsOneByte : Prop :=
  (∀ p : PortRequest, p.selector = 2#4 → decode (.request p) = .ok (.readData p.addr)) ∧
  ∀ (addr : AddrIn) (s : State), s.seq = .idle → Ready 7 s →
    Performs (.readData addr) (.readData addr)
      [.sel, .tx 0x03#8, .tx (addr.extractLsb' 16 8), .tx (addr.extractLsb' 8 8), .tx (addr.extractLsb' 0 8), .rx, .desel]
      (fun bs => match bs with | [r0] => .byte r0 | _ => .noValue) s

/-- 43_read_ops.md R163: selector 3 (decision D11 of the spec), `n` bytes in one bracket, `n = 0` included; the script's
answers stand in a field of the model's own (log 1). -/
def Obligations.FastReadDataReadsNBytes : Prop :=
  (∀ p : PortRequest, p.selector = 3#4 → decode (.request p) = .ok (.fastReadData p.addr p.n.toNat)) ∧
  ∀ (addr : AddrIn) (n : Nat) (s : State), s.seq = .idle → Ready (7 + n) s →
    Performs (.fastReadData addr n) (.fastReadData addr n)
      ([.sel, .tx 0x0B#8, .tx (addr.extractLsb' 16 8), .tx (addr.extractLsb' 8 8), .tx (addr.extractLsb' 0 8),
        .tx 0x00#8] ++ List.replicate n .rx ++ [.desel])
      (fun bs => .bytes bs) s

/-- 43_read_ops.md R166: selector 5 (decision D11 of the spec), as FastReadData with opcode 0x48; the script's answers
stand in a field of the model's own (log 1). -/
def Obligations.ReadSecurityRegisterReadsNBytes : Prop :=
  (∀ p : PortRequest, p.selector = 5#4 → decode (.request p) = .ok (.readSecurityRegister p.addr p.n.toNat)) ∧
  ∀ (addr : AddrIn) (n : Nat) (s : State), s.seq = .idle → Ready (7 + n) s →
    Performs (.readSecurityRegister addr n) (.readSecurityRegister addr n)
      ([.sel, .tx 0x48#8, .tx (addr.extractLsb' 16 8), .tx (addr.extractLsb' 8 8), .tx (addr.extractLsb' 0 8),
        .tx 0x00#8] ++ List.replicate n .rx ++ [.desel])
      (fun bs => .bytes bs) s

/-- 43_read_ops.md R168: selector 14, opcode 0xAB with three dummy bytes (decision D27 of the spec). -/
def Obligations.DeviceIDProbesWithTheReleaseOpcode : Prop :=
  (∀ p : PortRequest, p.selector = 14#4 → decode (.request p) = .ok .deviceID) ∧
  ∀ s : State, s.seq = .idle → Ready 7 s →
    Performs .deviceID .deviceID [.sel, .tx 0xAB#8, .tx 0x00#8, .tx 0x00#8, .tx 0x00#8, .rx, .desel]
      (fun bs => match bs with | [r0] => .byte r0 | _ => .noValue) s

/-- 44_program_erase_ops.md R175, R176: selector 4 (decision D11 of the spec), the write-enable bracket, then the address
and the leading `min(len, 256)` bytes; that it is the leading bytes that are sent is decision D8 of the spec. -/
def Obligations.PageProgramSendsTheLeadingPage : Prop :=
  (∀ p : PortRequest, p.selector = 4#4 → decode (.request p) = .ok (.pageProgram p.addr p.data)) ∧
  ∀ (addr : AddrIn) (data : List Byte) (s : State), s.seq = .idle → Ready (9 + min data.length 256) s →
    Performs (.pageProgram addr data) (.pageProgram addr data)
      ([.sel, .tx 0x06#8, .desel, .sel, .tx 0x02#8, .tx (addr.extractLsb' 16 8), .tx (addr.extractLsb' 8 8),
        .tx (addr.extractLsb' 0 8)] ++ (data.take (min data.length 256)).map .tx ++ [.desel])
      (fun _ => .noValue) s

/-- 44_program_erase_ops.md R180, R181, R182, 20_memory.md R60: selectors 6 to 8 (decision D11 of the spec), the low bits
of the address not masked (decision D18). -/
def Obligations.AddressedErasesSendOpcodeAndAddress : Prop :=
  (∀ p : PortRequest, p.selector = 6#4 → decode (.request p) = .ok (.sectorErase4KB p.addr)) ∧
  (∀ p : PortRequest, p.selector = 7#4 → decode (.request p) = .ok (.blockErase32KB p.addr)) ∧
  (∀ p : PortRequest, p.selector = 8#4 → decode (.request p) = .ok (.blockErase64KB p.addr)) ∧
  ∀ (addr : AddrIn) (s : State), s.seq = .idle → Ready 9 s →
    let erase := fun (opcode : Byte) => [Prim.sel, .tx 0x06#8, .desel, .sel, .tx opcode, .tx (addr.extractLsb' 16 8),
      .tx (addr.extractLsb' 8 8), .tx (addr.extractLsb' 0 8), .desel]
    Performs (.sectorErase4KB addr) (.sectorErase4KB addr) (erase 0x20#8) (fun _ => .noValue) s ∧
    Performs (.blockErase32KB addr) (.blockErase32KB addr) (erase 0x52#8) (fun _ => .noValue) s ∧
    Performs (.blockErase64KB addr) (.blockErase64KB addr) (erase 0xD8#8) (fun _ => .noValue) s

/-- 44_program_erase_ops.md R183: selector 9 (decision D11 of the spec), no address. -/
def Obligations.ChipEraseSendsTheOpcodeAlone : Prop :=
  (∀ p : PortRequest, p.selector = 9#4 → decode (.request p) = .ok .chipErase) ∧
  ∀ s : State, s.seq = .idle → Ready 6 s →
    Performs .chipErase .chipErase [.sel, .tx 0x06#8, .desel, .sel, .tx 0xC7#8, .desel] (fun _ => .noValue) s

/-- 45_control_ops.md R190 to R193: selectors 10 to 13 (decision D11 of the spec), one byte each. -/
def Obligations.ControlOperationsSendOneByte : Prop :=
  (∀ p : PortRequest, p.selector = 10#4 → decode (.request p) = .ok .suspend) ∧
  (∀ p : PortRequest, p.selector = 11#4 → decode (.request p) = .ok .resume) ∧
  (∀ p : PortRequest, p.selector = 12#4 → decode (.request p) = .ok .powerDown) ∧
  (∀ p : PortRequest, p.selector = 13#4 → decode (.request p) = .ok .releasePowerDown) ∧
  ∀ s : State, s.seq = .idle → Ready 3 s →
    Performs .suspend .suspend [.sel, .tx 0x75#8, .desel] (fun _ => .noValue) s ∧
    Performs .resume .resume [.sel, .tx 0x7A#8, .desel] (fun _ => .noValue) s ∧
    Performs .powerDown .powerDown [.sel, .tx 0xB9#8, .desel] (fun _ => .noValue) s ∧
    Performs .releasePowerDown .releasePowerDown [.sel, .tx 0xAB#8, .desel] (fun _ => .noValue) s

/-- The frame of all 15 operations, 41_sequencer.md R138 to R140: the whole of the state at acceptance and at the end.
A transport that hangs only after the operation's last primitive is no obstacle: the rule for a hang before it is
`HungTransportStopsTheSequencer` (R143). `done` withdrawn at acceptance, `delivered`, `answers` and `draws`, and
`stallIn` are the model's own (logs 1, 3 and 5). -/
def Obligations.EveryOperationRunsToTheEnd : Prop :=
  ∀ (r : Request) (s : State), s.seq = .idle → Ready r.expand.length s →
    RunsToTheEnd (Instr.ofRequest r) (.operation r) r.expand (resultOf (.operation r)) s

/-! ### The catalogue instructions of the wire (30_encoding.md R90), each a bracket alone (log 7) -/

/-- 30_encoding.md R90 rows I1, I11 to I14, I17: shape `NONE`. -/
def Obligations.BareWireInstructionsRunTheirBracket : Prop :=
  ∀ s : State, s.seq = .idle → Ready 3 s →
    let runs := fun (i : Instr) (w : Wire) (opcode : Byte) =>
      RunsToTheEnd i (.bracket ⟨w, 0, [], 0⟩) [.sel, .tx opcode, .desel] (fun _ => .bytes []) s
    runs .wireWriteEnable .writeEnable 0x06#8 ∧
    runs .wireChipErase .chipErase 0xC7#8 ∧
    runs .wireEraseProgramSuspend .eraseProgramSuspend 0x75#8 ∧
    runs .wireEraseProgramResume .eraseProgramResume 0x7A#8 ∧
    runs .wirePowerDown .powerDown 0xB9#8 ∧
    runs .wireReleasePowerDown .releasePowerDown 0xAB#8

/-- 30_encoding.md R90 rows I8 to I10: shape `ADDR`. -/
def Obligations.AddressedWireErasesRunTheirBracket : Prop :=
  ∀ (addr : FlashAddress) (s : State), s.seq = .idle → Ready 6 s →
    let runs := fun (i : Instr) (w : Wire) (opcode : Byte) =>
      RunsToTheEnd i (.bracket ⟨w, addr, [], 0⟩) [.sel, .tx opcode, .tx (addr.extractLsb' 16 8),
        .tx (addr.extractLsb' 8 8), .tx (addr.extractLsb' 0 8), .desel] (fun _ => .bytes []) s
    runs (.wireSectorErase4KB addr) .sectorErase4KB 0x20#8 ∧
    runs (.wireBlockErase32KB addr) .blockErase32KB 0x52#8 ∧
    runs (.wireBlockErase64KB addr) .blockErase64KB 0xD8#8

/-- 30_encoding.md R90 rows I4, I5, I15, I16, I18, I19: the shapes that receive. -/
def Obligations.WireReadsRunTheirBracket : Prop :=
  ∀ (addr : FlashAddress) (n : Nat) (s : State), s.seq = .idle →
    let a := [Prim.tx (addr.extractLsb' 16 8), .tx (addr.extractLsb' 8 8), .tx (addr.extractLsb' 0 8)]
    (Ready 4 s → RunsToTheEnd .wireReadStatusReg1 (.bracket ⟨.readStatusReg1, 0, [], 1⟩)
      [.sel, .tx 0x05#8, .rx, .desel] .bytes s) ∧
    (Ready 4 s → RunsToTheEnd .wireReadStatusReg2 (.bracket ⟨.readStatusReg2, 0, [], 1⟩)
      [.sel, .tx 0x35#8, .rx, .desel] .bytes s) ∧
    (Ready 7 s → RunsToTheEnd (.wireReadData addr) (.bracket ⟨.readData, addr, [], 1⟩)
      ([.sel, .tx 0x03#8] ++ a ++ [.rx, .desel]) .bytes s) ∧
    (Ready (7 + n) s → RunsToTheEnd (.wireFastRead addr n) (.bracket ⟨.fastRead, addr, [], n⟩)
      ([.sel, .tx 0x0B#8] ++ a ++ [.tx 0x00#8] ++ List.replicate n .rx ++ [.desel]) .bytes s) ∧
    (Ready (7 + n) s →
      RunsToTheEnd (.wireReadSecurityRegister addr n) (.bracket ⟨.readSecurityRegister, addr, [], n⟩)
      ([.sel, .tx 0x48#8] ++ a ++ [.tx 0x00#8] ++ List.replicate n .rx ++ [.desel]) .bytes s) ∧
    (Ready 7 s → RunsToTheEnd .wireDeviceIdProbe (.bracket ⟨.deviceIdProbe, 0, [], 1⟩)
      [.sel, .tx 0xAB#8, .tx 0x00#8, .tx 0x00#8, .tx 0x00#8, .rx, .desel] .bytes s)

/-- 30_encoding.md R90 rows I6, I7: the shapes that transmit a payload, of PageProgram at most a page (R87). -/
def Obligations.WireWritesRunTheirBracket : Prop :=
  ∀ (p1 p2 : Byte) (addr : FlashAddress) (out : List Byte) (s : State), s.seq = .idle →
    (Ready 5 s → RunsToTheEnd (.wireWriteStatusReg p1 p2) (.bracket ⟨.writeStatusReg, 0, [p1, p2], 0⟩)
      [.sel, .tx 0x01#8, .tx p1, .tx p2, .desel] (fun _ => .bytes []) s) ∧
    (Ready (6 + min out.length 256) s →
      RunsToTheEnd (.wirePageProgram addr out) (.bracket ⟨.pageProgram, addr, out.take 256, 0⟩)
      ([.sel, .tx 0x02#8, .tx (addr.extractLsb' 16 8), .tx (addr.extractLsb' 8 8), .tx (addr.extractLsb' 0 8)]
        ++ (out.take 256).map .tx ++ [.desel]) (fun _ => .bytes []) s)

/-- 30_encoding.md R94, 45_control_ops.md R196: the two rows without a shape stop by name, in every state. -/
def Obligations.RowsWithoutShapeAreRefused : Prop :=
  ∀ s : State, exec .wireVolatileSRWriteEnable s = .refused (.neverIssued 0x50#8) ∧
    exec .wireWriteDisable s = .refused (.neverIssued 0x04#8)

/-! ### The codecs (40) -/

/-- 40_codecs.md R110, for an address operand of any width: `a mod 2^24`. -/
def Obligations.AddressIsTruncatedTo24Bits : Prop :=
  ∀ (w : Nat) (a : BitVec w), (trunc24 a).toNat = a.toNat % 2 ^ 24 ∧
    (a.toNat ≤ 0xFFFFFF → (trunc24 a).toNat = a.toNat)

/-- 40_codecs.md R111: three bytes, bits 23..16 first. -/
def Obligations.AddressBytesAreMostSignificantFirst : Prop :=
  ∀ (w : Nat) (a : BitVec w), ∃ b0 b1 b2 : Byte, addrEnc a = [b0, b1, b2] ∧
    ∀ i : Nat, i < 8 → b0.getLsbD i = (trunc24 a).getLsbD (16 + i) ∧ b1.getLsbD i = (trunc24 a).getLsbD (8 + i) ∧
      b2.getLsbD i = (trunc24 a).getLsbD i

/-- 40_codecs.md R112, `DecodeBytes` being the source's test helper (R113): the round trip, and when two encodings
agree (the spec's own inference from R110 and R111). -/
def Obligations.AddressEncodingRoundTrips : Prop :=
  (∀ (w : Nat) (a : BitVec w), decodeBytes (addrEnc a) = some (trunc24 a).toNat) ∧
  (∀ (w : Nat) (a b : BitVec w), addrEnc a = addrEnc b ↔ trunc24 a = trunc24 b) ∧
  ∀ a b : FlashAddress, addrEnc a = addrEnc b → a = b

/-- 40_codecs.md R114. -/
def Obligations.DecodedFlagIsItsBit : Prop :=
  ∀ (b : Byte) (i : Fin 8), (srDec b).get i = b.getLsbD i

/-- 40_codecs.md R115: bit `i` is flag `i`, and the byte is the sum of the masks of the true flags. -/
def Obligations.EncodedBitIsItsFlag : Prop :=
  ∀ f : Flags8, (∀ i : Fin 8, (srEnc f).getLsbD i = f.get i) ∧
    (srEnc f).toNat = ((List.finRange 8).map (fun i => if f.get i then 2 ^ i.val else 0)).sum

/-- 40_codecs.md R116: `SrDec` and `SrEnc` are inverse to each other (the second half is the spec's own inference). -/
def Obligations.StatusCodecIsABijection : Prop :=
  (∀ b : Byte, srEnc (srDec b) = b) ∧ ∀ f : Flags8, srDec (srEnc f) = f

/-- 10_state.md R27, R28: the names of the 16 flags. -/
def Obligations.NamedFlagsAreTheirBits : Prop :=
  ∀ b : Byte,
    sr1Flag (srDec b) .BUSY = b.getLsbD 0 ∧ sr1Flag (srDec b) .WEL = b.getLsbD 1 ∧
    sr1Flag (srDec b) .BP0 = b.getLsbD 2 ∧ sr1Flag (srDec b) .BP1 = b.getLsbD 3 ∧
    sr1Flag (srDec b) .BP2 = b.getLsbD 4 ∧ sr1Flag (srDec b) .TB = b.getLsbD 5 ∧
    sr1Flag (srDec b) .SEC = b.getLsbD 6 ∧ sr1Flag (srDec b) .SRP0 = b.getLsbD 7 ∧
    sr2Flag (srDec b) .SRP1 = b.getLsbD 0 ∧ sr2Flag (srDec b) .QE = b.getLsbD 1 ∧
    sr2Flag (srDec b) .R = b.getLsbD 2 ∧ sr2Flag (srDec b) .LB1 = b.getLsbD 3 ∧
    sr2Flag (srDec b) .LB2 = b.getLsbD 4 ∧ sr2Flag (srDec b) .LB3 = b.getLsbD 5 ∧
    sr2Flag (srDec b) .CMP = b.getLsbD 6 ∧ sr2Flag (srDec b) .SUS = b.getLsbD 7

/-- 40_codecs.md R120 and 44_program_erase_ops.md R176 (decision D8 of the spec): at most 256 bytes, the leading ones,
in order. -/
def Obligations.PagePayloadIsTheLeadingPage : Prop :=
  (∀ n : Nat, clamp256 n = min n 256) ∧
  ∀ data : List Byte, (pagePayload data).length = min data.length 256 ∧
    ∀ i : Nat, i < min data.length 256 → (pagePayload data)[i]? = data[i]?

/-! ### Encoding (30) -/

/-- 30_encoding.md R83, R90 to R92: decoding what the encoder gives is the instruction, for every row and every
operand the encoding admits. The encoder's zeros in unread operands and its forms of 0x50 and 0x04 are the model's
own (logs 2 and 7). -/
def Obligations.DecodeOfEncodeIsTheInstruction : Prop :=
  ∀ i : Instr, i.WellFormed → decode (encode i) = .ok i

/-- 30_encoding.md R83, R84, R91: a bracket the decoder reads is exactly the bracket of the instruction it gives, so
no two brackets are read alike; the two brackets that open with 0xAB are told apart. R94 gives 0x50 and 0x04 no layout:
that the opcode byte alone is read as them, and only that, is the model's own (log 7). -/
def Obligations.DecodedBracketIsTheEncodersBracket : Prop :=
  ∀ (ps : List Prim) (i : Instr), decodeBracket ps = .ok i → i.WellFormed ∧ encode i = .bracket ps

/-- Words written out from the tables of 30_encoding.md R83, R90, R92 (a sanity statement). -/
def Obligations.WrittenOutWordsDecode : Prop :=
  decode (.bracket [.sel, .tx 0x06#8, .desel]) = .ok .wireWriteEnable ∧
  decode (.bracket [.sel, .tx 0x01#8, .tx 0x0C#8, .tx 0x02#8, .desel]) = .ok (.wireWriteStatusReg 0x0C#8 0x02#8) ∧
  decode (.bracket [.sel, .tx 0x20#8, .tx 0x12#8, .tx 0x34#8, .tx 0x56#8, .desel]) =
    .ok (.wireSectorErase4KB 0x123456#24) ∧
  decode (.bracket [.sel, .tx 0x0B#8, .tx 0x00#8, .tx 0x01#8, .tx 0x00#8, .tx 0x00#8, .rx, .rx, .desel]) =
    .ok (.wireFastRead 0x000100#24 2) ∧
  decode (.bracket [.sel, .tx 0xAB#8, .desel]) = .ok .wireReleasePowerDown ∧
  decode (.bracket [.sel, .tx 0xAB#8, .tx 0x00#8, .tx 0x00#8, .tx 0x00#8, .rx, .desel]) = .ok .wireDeviceIdProbe ∧
  decodeTableWord 8 0x9 = some .chipErase ∧ decodeTableWord 8 0xE = some .deviceID ∧ decodeTableWord 8 0xF = none

/-- 41_sequencer.md R132: the length of a bracket's primitives, `3 + 3A + d + n`. -/
def Obligations.BracketLengthCountsItsFields : Prop :=
  ∀ (w : Nat) (i : Wire) (a : BitVec w) (out : List Byte) (nin : Nat),
    (bracketPrims i a out nin).length = 3 + (if i.hasAddr then 3 else 0) + i.dummies +
      (if i.sends then out.length else 0) + (if i.receives then nin else 0)

/-! ### Micro-programs (41) -/

/-- 41_sequencer.md R131, R141: SEL and DESEL alternate from SEL to DESEL with every byte in between, as many of one
as of the other, two brackets for ReadStatusRegisters and the write class, one for the others. -/
def Obligations.EveryProgramIsBalanced : Prop :=
  ∀ r : Request, busLevel .deasserted r.expand = some .deasserted ∧
    r.expand.count .sel = r.expand.count .desel ∧
    r.expand.count .sel = if r.writeClass = true ∨ r = .readStatusRegisters then 2 else 1

/-- 41_sequencer.md R137: the number of primitives of each operation. -/
def Obligations.ProgramLengths : Prop :=
  ∀ (addr : AddrIn) (n : Nat) (data : List Byte) (sr1 sr2 : Flags8),
    Request.readStatusRegisters.expand.length = 8 ∧ (Request.writeStatusRegisters sr1 sr2).expand.length = 8 ∧
    (Request.readData addr).expand.length = 7 ∧ Request.deviceID.expand.length = 7 ∧
    (Request.fastReadData addr n).expand.length = 7 + n ∧
    (Request.readSecurityRegister addr n).expand.length = 7 + n ∧
    (Request.pageProgram addr data).expand.length = 9 + min data.length 256 ∧
    (Request.pageProgram addr data).expand.length ≤ 265 ∧
    (Request.sectorErase4KB addr).expand.length = 9 ∧ (Request.blockErase32KB addr).expand.length = 9 ∧
    (Request.blockErase64KB addr).expand.length = 9 ∧ Request.chipErase.expand.length = 6 ∧
    Request.suspend.expand.length = 3 ∧ Request.resume.expand.length = 3 ∧
    Request.powerDown.expand.length = 3 ∧ Request.releasePowerDown.expand.length = 3

/-- 30_encoding.md R96: the first bytes of the brackets of the operations are exactly these 16. -/
def Obligations.OpeningBytesAreTheSixteen : Prop :=
  ∀ b : Byte, (∃ r : Request, b ∈ openers r.expand) ↔
    b ∈ [0x01#8, 0x02#8, 0x03#8, 0x05#8, 0x06#8, 0x0B#8, 0x20#8, 0x35#8,
      0x48#8, 0x52#8, 0x75#8, 0x7A#8, 0xAB#8, 0xB9#8, 0xC7#8, 0xD8#8]

/-- 41_sequencer.md R136: the six write-class operations are the write-enable bracket and one more bracket; no other
operation has it. -/
def Obligations.WriteClassHasTheWriteEnableBracket : Prop :=
  ∀ r : Request,
    (r.writeClass = true → ∃ (opcode : Byte) (rest : List Prim), opcode ∈ writeOpcodes ∧
      r.expand = [.sel, .tx 0x06#8, .desel, .sel, .tx opcode] ++ rest ∧ Prim.sel ∉ rest) ∧
    (r.writeClass = false → ∀ b ∈ openers r.expand, b ≠ 0x06#8 ∧ b ∉ writeOpcodes)

/-- 30_encoding.md R100: an operation is the brackets of its catalogue instructions, one after another. -/
def Obligations.OperationIsItsCatalogueInstructions : Prop :=
  ∀ r : Request, r.expand = r.wires.flatMap (fun i =>
    match encode i with
    | .bracket ps => ps
    | .request _ => [])

/-- 41_sequencer.md R133, 00_scope.md R12: the bursts of an operation flatten to its primitives, and none is empty. -/
def Obligations.BurstsFlattenToTheProgram : Prop :=
  ∀ r : Request, r.bursts.flatMap Burst.prims = r.expand ∧
    Burst.transmit [] ∉ r.bursts ∧ Burst.receive 0 ∉ r.bursts

/-- 10_state.md R25: how many bytes each operation receives. -/
def Obligations.ReceivedCountIsFixedByTheRequest : Prop :=
  ∀ r : Request, r.expand.count .rx =
    match r with
    | .readStatusRegisters => 2
    | .readData _ | .deviceID => 1
    | .fastReadData _ n | .readSecurityRegister _ n => n
    | .writeStatusRegisters _ _ | .pageProgram _ _ | .sectorErase4KB _ | .blockErase32KB _ | .blockErase64KB _
    | .chipErase | .suspend | .resume | .powerDown | .releasePowerDown => 0

/-! ### The step relation (41), the command port and the transport (60), reset (70) -/

/-- 41_sequencer.md R138, 60_exceptions.md R222: in `Idle` and out of reset a step is `exec` of the request that decodes
at the head of the port, on the state past it; a pending direct invocation goes first (log 7). -/
def Obligations.StepRunsThePresentedInstruction : Prop :=
  ∀ s : State, s.seq = .idle → NotInReset s →
    (∀ (p : PortRequest) (ps : List PortRequest) (i : Instr), s.call = none → s.port = p :: ps →
      decode (.request p) = .ok i → step s = exec i { s with port := ps }) ∧
    (∀ (ps : List Prim) (i : Instr), s.call = some ps → decode (.bracket ps) = .ok i →
      step s = exec i { s with call := none })

/-- 30_encoding.md R93 (decision D11 of the spec): selector 15 is not accepted: nothing is emitted, nothing changes. -/
def Obligations.SelectorFifteenIsNotAccepted : Prop :=
  ∀ (s : State) (p : PortRequest) (ps : List PortRequest), s.seq = .idle → NotInReset s → s.call = none →
    s.port = p :: ps → p.selector = 15#4 → step s = .next s

/-- 41_sequencer.md R139 (decision D14 of the spec): what a step does with each primitive. That scripted answers go
first and the oracle is drawn by a counter is the model's own (log 1). -/
def Obligations.StepPerformsThePrimitive : Prop :=
  ∀ (s : State) (job : Job) (prog : List Prim) (pos : Nat) (rx : List Byte),
    s.seq = .run job prog pos rx → NotInReset s → ExclusiveBus s → s.stallIn ≠ some 0 →
    (prog[pos]? = some .sel → ∃ t, step s = .next t ∧ t.seq = .run job prog (pos + 1) rx ∧ t.sel = .asserted ∧
      t.trace = s.trace ++ [.sel] ∧ t.answers = s.answers ∧ t.draws = s.draws) ∧
    (prog[pos]? = some .desel → ∃ t, step s = .next t ∧ t.seq = .run job prog (pos + 1) rx ∧ t.sel = .deasserted ∧
      t.trace = s.trace ++ [.desel] ∧ t.answers = s.answers ∧ t.draws = s.draws) ∧
    (∀ b, prog[pos]? = some (.tx b) → ∃ t, step s = .next t ∧ t.seq = .run job prog (pos + 1) rx ∧ t.sel = s.sel ∧
      t.trace = s.trace ++ [.tx b] ∧ t.answers = s.answers ∧ t.draws = s.draws) ∧
    (prog[pos]? = some .rx → ∃ t b, step s = .next t ∧ t.seq = .run job prog (pos + 1) (rx ++ [b]) ∧ t.sel = s.sel ∧
      t.trace = s.trace ++ [.rx b] ∧
      (∀ a as, s.answers = a :: as → b = a ∧ t.answers = as ∧ t.draws = s.draws) ∧
      (s.answers = [] → b = Config.oracle s.draws s.trace ∧ t.answers = [] ∧ t.draws = s.draws + 1))

/-- 41_sequencer.md R140: completion, with the result of each operation, nothing recorded. -/
def Obligations.CompletionDeliversTheResult : Prop :=
  ∀ (s : State) (job : Job) (prog : List Prim) (rx : List Byte),
    s.seq = .run job prog prog.length rx → NotInReset s → ExclusiveBus s →
    ∃ (t : State) (res : Result), step s = .next t ∧ t.seq = .idle ∧ t.done = some res ∧ t.trace = s.trace ∧
      t.sel = s.sel ∧
      (∀ s1 s2, job = .operation .readStatusRegisters → rx = [s1, s2] → res = .flags (srDec s1) (srDec s2)) ∧
      (∀ a b, job = .operation (.readData a) ∨ job = .operation .deviceID → rx = [b] → res = .byte b) ∧
      (∀ a n, job = .operation (.fastReadData a n) ∨ job = .operation (.readSecurityRegister a n) → res = .bytes rx) ∧
      (∀ r : Request, job = .operation r →
        r.writeClass = true ∨ r = .suspend ∨ r = .resume ∨ r = .powerDown ∨ r = .releasePowerDown → res = .noValue)

/-- 41_sequencer.md R143: a transport that completes `k` primitives and no more leaves the sequencer at `pos = k`, with
chip-select as it then stands, for ever. -/
def Obligations.HungTransportStopsTheSequencer : Prop :=
  ∀ (r : Request) (s : State) (k : Nat), s.seq = .idle → NotInReset s → ExclusiveBus s → s.stallIn = some k →
    k < r.expand.length →
    ∃ (t u : State) (rx : List Byte), exec (Instr.ofRequest r) s = .next t ∧
      Host.Core.run core k t = .next u ∧ u.seq = .run (.operation r) r.expand k rx ∧
      skeleton u.trace = skeleton s.trace ++ r.expand.take k ∧
      (0 < k → busLevel .deasserted (r.expand.take k) = some u.sel) ∧
      step u = .fault .transportNeverCompletes ∧
      ∀ m, Host.Core.run core (k + 1 + m) t = .fault .transportNeverCompletes

/-- 41_sequencer.md R144: a request presented while an operation runs waits. The second clause holds of every step from
`Run`, one with reset applied among them: that reset leaves the waiting requests on the port is the model's own (log 4),
and so are the port as a queue (log 2) and the field `call` (log 7), which reset leaves too (log 4). -/
def Obligations.RequestWaitsWhileRunning : Prop :=
  ∀ (s : State) (job : Job) (prog : List Prim) (pos : Nat) (rx : List Byte), s.seq = .run job prog pos rx →
    (∀ r : Request, exec (Instr.ofRequest r) s = .next s) ∧
    ∀ t : State, step s = .next t → t.port = s.port ∧ t.call = s.call

/-- 60_exceptions.md R223: where another agent drives the transport while an operation runs, nothing is said. -/
def Obligations.SharedBusIsRefused : Prop :=
  ∀ (s : State) (job : Job) (prog : List Prim) (pos : Nat) (rx : List Byte), s.seq = .run job prog pos rx →
    NotInReset s → s.otherAgent = true → step s = .refused .exclusiveBusBroken

/-- 60_exceptions.md R210, 30_encoding.md R97: where only the host's requests are served, a step stops only on the hung
transport or on a broken `ExclusiveBus`, whatever the operands. R210 has no fault, and counts the selector that names no operation among the refusals: that the
hang is written as a fault (log 5), the broken premise as a refusal (log 6), and that selector 15 is a step which
changes nothing (log 8) are the model's own. -/
def Obligations.OnlyTheNamedStops : Prop :=
  ∀ s : State, HostOnly s →
    (∀ f, step s = .fault f → f = .transportNeverCompletes ∧ s.stallIn = some 0 ∧ s.seq ≠ .idle) ∧
    (∀ r, step s = .refused r → r = .exclusiveBusBroken ∧ s.otherAgent = true ∧ s.seq ≠ .idle)

/-- 70_reset_and_hazards.md R240, R241, R256, 60_exceptions.md R212: reset wins in every state, a hang among them: the
operation is abandoned, an open bracket closed in the trace, no result delivered. That the inputs and the history
stay and that `done` is withdrawn is the model's own (logs 3 and 4). -/
def Obligations.ResetAbandonsTheOperation : Prop :=
  ∀ s : State, s.rst = true → step s = .next { s with
    seq := .idle
    sel := .deasserted
    done := none
    trace := if s.sel = .asserted then s.trace ++ [.desel] else s.trace }

/-- 10_state.md R40, 70_reset_and_hazards.md R240: the state after reset; with nothing presented the block waits in
`Idle` and emits nothing, from any such state. -/
def Obligations.ResetStateWaitsInIdle : Prop :=
  State.reset.seq = .idle ∧ State.reset.sel = .deasserted ∧ State.reset.trace = [] ∧
    ∀ s : State, s.seq = .idle → NotInReset s → s.call = none → s.port = [] → step s = .next s

/-! ### Whole-machine rules -/

/-- The invariant holds at reset (10_state.md R40). -/
def Obligations.InvariantHoldsAtReset : Prop := SequencerInv State.reset

/-- 10_state.md R23 to R25, 41_sequencer.md R131, R141: every step keeps the invariant of the sequencer. Its
conjunct that no result is shown in `Run` is the model's own (log 3). -/
def Obligations.StepKeepsTheInvariant : Prop :=
  ∀ s t : State, SequencerInv s → step s = .next t → SequencerInv t

/-- 30_encoding.md R96: from a state that meets the invariant, no step opens a bracket with another byte. -/
def Obligations.StepKeepsOpenersEmittable : Prop :=
  ∀ s t : State, SequencerInv s → OpenersEmittable s → step s = .next t → OpenersEmittable t

/-- 41_sequencer.md R136, 70_reset_and_hazards.md R250: where only the host's requests are served, every write-class
bracket on the bus comes directly after a WriteEnable bracket. -/
def Obligations.StepKeepsWritesArmed : Prop :=
  ∀ s t : State, HostOnly s → SequencerInv s → WritesArmed s → step s = .next t → WritesArmed t

/-- 45_control_ops.md R195: serving the host's requests starts operations only, never a bracket alone (log 7);
reset leaves `call` as it is (log 4). -/
def Obligations.StepKeepsHostOnly : Prop :=
  ∀ s t : State, HostOnly s → step s = .next t → HostOnly t

/-- 10_state.md R22, R23: the latched request and its micro-program are read-only until the operation ends, and `pos`
only ever advances by one. -/
def Obligations.LatchedRequestIsReadOnly : Prop :=
  ∀ (s t : State) (job : Job) (prog : List Prim) (pos : Nat) (rx : List Byte), s.seq = .run job prog pos rx →
    step s = .next t →
    t.seq = .idle ∨ ∃ more : List Byte, more.length ≤ 1 ∧ t.seq = .run job prog (pos + 1) (rx ++ more)

/-- 20_memory.md R66, 00_scope.md R12: a step adds at most one event, at the end, and takes none away; so with the
results. That a reset keeps both histories is the model's own (log 4), and so is `delivered` (log 3). -/
def Obligations.TraceOnlyGrows : Prop :=
  ∀ s t : State, step s = .next t →
    (∃ new : List Event, new.length ≤ 1 ∧ t.trace = s.trace ++ new) ∧
    ∃ res : List Result, res.length ≤ 1 ∧ t.delivered = s.delivered ++ res

/-- The frame of a step: the inputs are the outside world's (60_exceptions.md R222): a step takes from the port and
from the script at most their first entry, takes a pending direct invocation, counts at most one primitive off what the
transport still completes, and changes no input otherwise (their form: logs 1, 2, 4 to 7). -/
def Obligations.StepOnlyTakesFromTheInputs : Prop :=
  ∀ s t : State, step s = .next t →
    t.rst = s.rst ∧ t.otherAgent = s.otherAgent ∧ (t.port = s.port ∨ t.port = s.port.tail) ∧
    (t.answers = s.answers ∨ t.answers = s.answers.tail) ∧ (t.call = s.call ∨ t.call = none) ∧
    (t.stallIn = s.stallIn ∨ t.stallIn = stallTick s.stallIn)

/-- 41_sequencer.md R141, 10_state.md R20: what an operation puts on the bus is a function of its request alone: from
any two states, whatever their history, scripts and oracle draws, the events differ in the received values only, at
every step of the way. -/
def Obligations.TransmittedBytesDependOnTheRequestAlone : Prop :=
  ∀ (r : Request) (s1 s2 t1 t2 u1 u2 : State) (k : Nat), s1.seq = .idle → s2.seq = .idle → NotInReset s1 →
    NotInReset s2 → exec (Instr.ofRequest r) s1 = .next t1 → exec (Instr.ofRequest r) s2 = .next t2 →
    k ≤ r.expand.length → Host.Core.run core k t1 = .next u1 → Host.Core.run core k t2 = .next u2 →
    ∃ e1 e2 : List Event, u1.trace = s1.trace ++ e1 ∧ u2.trace = s2.trace ++ e2 ∧ skeleton e1 = skeleton e2 ∧
      skeleton e1 = r.expand.take k

/-- 41_sequencer.md R145, 20_memory.md R66: a host program of requests runs to its end: every request accepted and
completed in order, the trace the concatenation of theirs, each with its result. `delivered` is the model's own
record (log 3), the encoder's zeros are log 2, and the transport need complete no more than their primitives (log 5). -/
def Obligations.HostProgramRunsInOrder : Prop :=
  ∀ (rs : List Request) (s : State), Ready (rs.map (fun r => r.expand.length)).sum s → s.seq = .idle →
    s.sel = .deasserted → s.call = none →
    s.port = rs.map encodeRequest → (∀ r ∈ rs, (Instr.ofRequest r).WellFormed) →
    ∃ (bss : List (List Byte)) (u : State), bss.map List.length = rs.map (fun r => r.expand.count .rx) ∧
      Host.Core.run core (rs.map (fun r => r.expand.length + 2)).sum s = .next u ∧
      u.seq = .idle ∧ u.sel = .deasserted ∧ u.port = [] ∧
      u.trace = s.trace ++ (rs.zip bss).flatMap (fun x => playback x.1.expand x.2) ∧
      u.delivered = s.delivered ++ (rs.zip bss).map (fun x => resultOf (.operation x.1) x.2)
end

