-- ==== Sys2Proof/Laws/State.lean ====
section
/-! SUPPORT. One lemma per field per update of the state, so that no proof unfolds a record update. -/

namespace Sys2Proof.Machine

variable (s : State) (job : Job) (prog : List Prim) (pos : Nat) (rx : List Byte) (p : Prim)

-- start
@[simp] theorem State.start_seq : (s.start job prog).seq = .run job prog 0 [] := rfl
@[simp] theorem State.start_sel : (s.start job prog).sel = s.sel := rfl
@[simp] theorem State.start_port : (s.start job prog).port = s.port := rfl
@[simp] theorem State.start_call : (s.start job prog).call = s.call := rfl
@[simp] theorem State.start_done : (s.start job prog).done = none := rfl
@[simp] theorem State.start_delivered : (s.start job prog).delivered = s.delivered := rfl
@[simp] theorem State.start_trace : (s.start job prog).trace = s.trace := rfl
@[simp] theorem State.start_answers : (s.start job prog).answers = s.answers := rfl
@[simp] theorem State.start_draws : (s.start job prog).draws = s.draws := rfl
@[simp] theorem State.start_stallIn : (s.start job prog).stallIn = s.stallIn := rfl
@[simp] theorem State.start_rst : (s.start job prog).rst = s.rst := rfl
@[simp] theorem State.start_otherAgent : (s.start job prog).otherAgent = s.otherAgent := rfl

-- complete
@[simp] theorem State.complete_seq : (s.complete job rx).seq = .idle := rfl
@[simp] theorem State.complete_sel : (s.complete job rx).sel = s.sel := rfl
@[simp] theorem State.complete_port : (s.complete job rx).port = s.port := rfl
@[simp] theorem State.complete_call : (s.complete job rx).call = s.call := rfl
@[simp] theorem State.complete_done : (s.complete job rx).done = some (resultOf job rx) := rfl
@[simp] theorem State.complete_delivered : (s.complete job rx).delivered = s.delivered ++ [resultOf job rx] := rfl
@[simp] theorem State.complete_trace : (s.complete job rx).trace = s.trace := rfl
@[simp] theorem State.complete_answers : (s.complete job rx).answers = s.answers := rfl
@[simp] theorem State.complete_draws : (s.complete job rx).draws = s.draws := rfl
@[simp] theorem State.complete_stallIn : (s.complete job rx).stallIn = s.stallIn := rfl
@[simp] theorem State.complete_rst : (s.complete job rx).rst = s.rst := rfl
@[simp] theorem State.complete_otherAgent : (s.complete job rx).otherAgent = s.otherAgent := rfl

-- applyReset
@[simp] theorem State.applyReset_seq : (s.applyReset).seq = .idle := rfl
@[simp] theorem State.applyReset_sel : (s.applyReset).sel = .deasserted := rfl
@[simp] theorem State.applyReset_port : (s.applyReset).port = s.port := rfl
@[simp] theorem State.applyReset_call : (s.applyReset).call = s.call := rfl
@[simp] theorem State.applyReset_done : (s.applyReset).done = none := rfl
@[simp] theorem State.applyReset_delivered : (s.applyReset).delivered = s.delivered := rfl
@[simp] theorem State.applyReset_trace : (s.applyReset).trace = (match s.sel with | .asserted => s.trace ++ [.desel] | .deasserted => s.trace) := rfl
@[simp] theorem State.applyReset_answers : (s.applyReset).answers = s.answers := rfl
@[simp] theorem State.applyReset_draws : (s.applyReset).draws = s.draws := rfl
@[simp] theorem State.applyReset_stallIn : (s.applyReset).stallIn = s.stallIn := rfl
@[simp] theorem State.applyReset_rst : (s.applyReset).rst = s.rst := rfl
@[simp] theorem State.applyReset_otherAgent : (s.applyReset).otherAgent = s.otherAgent := rfl

-- takeByte
@[simp] theorem State.takeByte_seq : (s.takeByte).seq = s.seq := by
  unfold State.takeByte
  split <;> rfl
@[simp] theorem State.takeByte_sel : (s.takeByte).sel = s.sel := by
  unfold State.takeByte
  split <;> rfl
@[simp] theorem State.takeByte_port : (s.takeByte).port = s.port := by
  unfold State.takeByte
  split <;> rfl
@[simp] theorem State.takeByte_call : (s.takeByte).call = s.call := by
  unfold State.takeByte
  split <;> rfl
@[simp] theorem State.takeByte_done : (s.takeByte).done = s.done := by
  unfold State.takeByte
  split <;> rfl
@[simp] theorem State.takeByte_delivered : (s.takeByte).delivered = s.delivered := by
  unfold State.takeByte
  split <;> rfl
@[simp] theorem State.takeByte_trace : (s.takeByte).trace = s.trace := by
  unfold State.takeByte
  split <;> rfl
@[simp] theorem State.takeByte_answers : (s.takeByte).answers = s.answers.tail := by
  unfold State.takeByte
  split <;> simp_all
@[simp] theorem State.takeByte_draws : (s.takeByte).draws = s.draws + (1 - s.answers.length) := by
  unfold State.takeByte
  split <;> simp_all
@[simp] theorem State.takeByte_stallIn : (s.takeByte).stallIn = s.stallIn := by
  unfold State.takeByte
  split <;> rfl
@[simp] theorem State.takeByte_rst : (s.takeByte).rst = s.rst := by
  unfold State.takeByte
  split <;> rfl
@[simp] theorem State.takeByte_otherAgent : (s.takeByte).otherAgent = s.otherAgent := by
  unfold State.takeByte
  split <;> rfl

-- consumed
@[simp] theorem State.consumed_seq : (s.consumed p).seq = s.seq := by
  cases p <;> simp [State.consumed]
@[simp] theorem State.consumed_sel : (s.consumed p).sel = s.sel := by
  cases p <;> simp [State.consumed]
@[simp] theorem State.consumed_port : (s.consumed p).port = s.port := by
  cases p <;> simp [State.consumed]
@[simp] theorem State.consumed_call : (s.consumed p).call = s.call := by
  cases p <;> simp [State.consumed]
@[simp] theorem State.consumed_done : (s.consumed p).done = s.done := by
  cases p <;> simp [State.consumed]
@[simp] theorem State.consumed_delivered : (s.consumed p).delivered = s.delivered := by
  cases p <;> simp [State.consumed]
@[simp] theorem State.consumed_trace : (s.consumed p).trace = s.trace := by
  cases p <;> simp [State.consumed]
@[simp] theorem State.consumed_answers : (s.consumed p).answers = s.answers.drop ([p].count .rx) := by
  cases p <;> simp [State.consumed]
@[simp] theorem State.consumed_draws : (s.consumed p).draws = s.draws + ([p].count .rx - s.answers.length) := by
  cases p <;> simp [State.consumed]
@[simp] theorem State.consumed_stallIn : (s.consumed p).stallIn = s.stallIn := by
  cases p <;> simp [State.consumed]
@[simp] theorem State.consumed_rst : (s.consumed p).rst = s.rst := by
  cases p <;> simp [State.consumed]
@[simp] theorem State.consumed_otherAgent : (s.consumed p).otherAgent = s.otherAgent := by
  cases p <;> simp [State.consumed]

-- stallTick
/-- Counting off one primitive and then `n` is counting off `n + 1`. -/
theorem stallTick_map (left : Option Nat) (n : Nat) : (stallTick left).map (· - n) = left.map (· - (n + 1)) := by
  rcases left with _ | _ | k <;> simp [stallTick]

/-- A transport that completes the next `n + 1` primitives completes the next one, and `n` after it. -/
theorem stallTick_all {left : Option Nat} {n : Nat} (h : (left.all fun k => decide (n + 1 ≤ k)) = true) :
    left ≠ some 0 ∧ ((stallTick left).all fun k => decide (n ≤ k)) = true := by
  rcases left with _ | _ | k <;> simp_all [stallTick]

-- perform
@[simp] theorem State.perform_seq : (s.perform job prog pos rx p).seq = .run job prog (pos + 1) (rx ++ s.received p) := rfl
@[simp] theorem State.perform_sel : (s.perform job prog pos rx p).sel = s.levelAfter p := rfl
@[simp] theorem State.perform_port : (s.perform job prog pos rx p).port = s.port := State.consumed_port s p
@[simp] theorem State.perform_call : (s.perform job prog pos rx p).call = s.call := State.consumed_call s p
@[simp] theorem State.perform_done : (s.perform job prog pos rx p).done = s.done := State.consumed_done s p
@[simp] theorem State.perform_delivered : (s.perform job prog pos rx p).delivered = s.delivered := State.consumed_delivered s p
@[simp] theorem State.perform_trace : (s.perform job prog pos rx p).trace = s.trace ++ [s.eventOf p] := rfl
@[simp] theorem State.perform_answers : (s.perform job prog pos rx p).answers = (s.consumed p).answers := rfl
@[simp] theorem State.perform_draws : (s.perform job prog pos rx p).draws = (s.consumed p).draws := rfl
@[simp] theorem State.perform_stallIn : (s.perform job prog pos rx p).stallIn = stallTick s.stallIn := rfl
@[simp] theorem State.perform_rst : (s.perform job prog pos rx p).rst = s.rst := State.consumed_rst s p
@[simp] theorem State.perform_otherAgent : (s.perform job prog pos rx p).otherAgent = s.otherAgent := State.consumed_otherAgent s p

end Sys2Proof.Machine
end

