-- ==== Sys2Proof/Laws/Ops.lean ====
section
/-! SUPPORT. What each shared operation can do, said once: acceptance, one step in `Run`, one step of the machine. -/

namespace Sys2Proof.Machine

/-- Acceptance answers a next state always: started where it was idle, unchanged where it was running. -/
theorem State.accept_idle {s : State} (h : s.seq = .idle) (job : Job) (prog : List Prim) :
    s.accept job prog = .next (s.start job prog) := by
  simp [State.accept, h]

theorem State.accept_run {s : State} {j : Job} {q : List Prim} {k : Nat} {r : List Byte}
    (h : s.seq = .run j q k r) (job : Job) (prog : List Prim) : s.accept job prog = .next s := by
  simp [State.accept, h]

theorem State.accept_next {s t : State} {job : Job} {prog : List Prim} (h : s.accept job prog = .next t) :
    (s.seq = .idle ∧ t = s.start job prog) ∨ t = s := by
  unfold State.accept at h
  split at h
  · exact .inl ⟨by assumption, by injection h with h; exact h.symm⟩
  · exact .inr (by injection h with h; exact h.symm)

theorem State.invoke_idle {s : State} (h : s.seq = .idle) (c : Call) :
    s.invoke c = .next (s.start (.bracket c) (progCall c)) :=
  State.accept_idle h _ _

/-- One step in `Run` that answers a next state: at the end of the micro-program it completes, before the end it
performs the next primitive on a transport that answers. -/
theorem State.advance_next {s t : State} {job : Job} {prog : List Prim} {pos : Nat} {rx : List Byte}
    (h : s.advance job prog pos rx = .next t) :
    s.otherAgent = false ∧
      ((prog.length ≤ pos ∧ t = s.complete job rx) ∨
        ∃ p, prog[pos]? = some p ∧ s.stallIn ≠ some 0 ∧ t = s.perform job prog pos rx p) := by
  unfold State.advance at h
  split at h
  · cases h
  · refine ⟨by simp_all, ?_⟩
    split at h
    · exact .inl ⟨by simp_all, by injection h with h; exact h.symm⟩
    · rename_i p hp
      split at h
      · cases h
      · exact .inr ⟨p, hp, by assumption, by injection h with h; exact h.symm⟩

theorem State.advance_perform {s : State} {job : Job} {prog : List Prim} {pos : Nat} {rx : List Byte} {p : Prim}
    (ha : s.otherAgent = false) (hs : s.stallIn ≠ some 0) (hp : prog[pos]? = some p) :
    s.advance job prog pos rx = .next (s.perform job prog pos rx p) := by
  simp [State.advance, ha, hs, hp]

theorem State.advance_complete {s : State} {job : Job} {prog : List Prim} {pos : Nat} {rx : List Byte}
    (ha : s.otherAgent = false) (hp : prog.length ≤ pos) :
    s.advance job prog pos rx = .next (s.complete job rx) := by
  simp [State.advance, ha, List.getElem?_eq_none hp]

/-- What is taken in `Idle` changes the presented input only. -/
theorem State.fetched_some {s t : State} {i : Instr} (h : s.fetched = some (i, t)) :
    (∃ ps, s.call = some ps ∧ decode (.bracket ps) = .ok i ∧ t = { s with call := none }) ∨
      ∃ p ps, s.call = none ∧ s.port = p :: ps ∧ decode (.request p) = .ok i ∧ t = { s with port := ps } := by
  unfold State.fetched at h
  split at h
  · rename_i ps hc
    split at h
    · rename_i j hd
      simp only [Option.some.injEq, Prod.mk.injEq] at h
      exact .inl ⟨ps, hc, h.1 ▸ hd, h.2.symm⟩
    · cases h
  · rename_i hc
    split at h
    · cases h
    · rename_i p ps hport
      split at h
      · rename_i j hd
        simp only [Option.some.injEq, Prod.mk.injEq] at h
        exact .inr ⟨p, ps, hc, hport, h.1 ▸ hd, h.2.symm⟩
      · cases h

/-- The job and the micro-program an instruction starts, where it starts one. -/
theorem exec_next {i : Instr} {s t : State} (h : exec i s = .next t) :
    t = s ∨ ∃ job : Job, s.seq = .idle ∧ job.issuable = true ∧ t = s.start job job.program := by
  cases i <;> first
    | (rcases State.accept_next h with ⟨hi, ht⟩ | ht
       · exact .inr ⟨_, hi, rfl, ht⟩
       · exact .inl ht)
    | cases h

/-- Everything a step can do when it answers a next state. -/
theorem step_cases {s t : State} (h : step s = .next t) :
    (s.rst = true ∧ t = s.applyReset) ∨
      (s.rst = false ∧
        ((∃ job prog pos rx, s.seq = .run job prog pos rx ∧ s.otherAgent = false ∧
            ((prog.length ≤ pos ∧ t = s.complete job rx) ∨
              ∃ p, prog[pos]? = some p ∧ s.stallIn ≠ some 0 ∧ t = s.perform job prog pos rx p)) ∨
          (s.seq = .idle ∧ ((s.fetched = none ∧ t = s) ∨ ∃ i u, s.fetched = some (i, u) ∧ exec i u = .next t)))) := by
  unfold step at h
  split at h
  · exact .inl ⟨by assumption, by injection h with h; exact h.symm⟩
  · refine .inr ⟨by simp_all, ?_⟩
    split at h
    · rename_i job prog pos rx hs
      exact .inl ⟨job, prog, pos, rx, hs, State.advance_next h⟩
    · rename_i hs
      refine .inr ⟨hs, ?_⟩
      split at h
      · rename_i i u hf
        exact .inr ⟨i, u, hf, h⟩
      · exact .inl ⟨by assumption, by injection h with h; exact h.symm⟩

/-- A step in `Run` outside reset is `State.advance`. -/
theorem step_run {s : State} {job : Job} {prog : List Prim} {pos : Nat} {rx : List Byte} (hr : s.rst = false)
    (hs : s.seq = .run job prog pos rx) : step s = s.advance job prog pos rx := by
  simp [step, hr, hs]

/-- A step in `Idle` outside reset with an instruction presented is `exec` of it. -/
theorem step_idle {s t : State} {i : Instr} (hr : s.rst = false) (hs : s.seq = .idle)
    (hf : s.fetched = some (i, t)) : step s = exec i t := by
  simp [step, hr, hs, hf]

/-- A step in `Idle` outside reset with nothing to take changes nothing. -/
theorem step_wait {s : State} (hr : s.rst = false) (hs : s.seq = .idle) (hf : s.fetched = none) :
    step s = .next s := by
  simp [step, hr, hs, hf]

/-- Under the three premises one step performs the next primitive. -/
theorem step_perform {s : State} {job : Job} {prog : List Prim} {pos : Nat} {rx : List Byte} {p : Prim}
    (hr : s.rst = false) (ha : s.otherAgent = false) (hl : s.stallIn ≠ some 0) (hs : s.seq = .run job prog pos rx)
    (hp : prog[pos]? = some p) : step s = .next (s.perform job prog pos rx p) := by
  rw [step_run hr hs, State.advance_perform ha hl hp]

/-- With exclusive use of the bus one step at the end of the micro-program completes the operation. -/
theorem step_complete {s : State} {job : Job} {prog : List Prim} {pos : Nat} {rx : List Byte} (hr : s.rst = false)
    (ha : s.otherAgent = false) (hs : s.seq = .run job prog pos rx) (hp : prog.length ≤ pos) :
    step s = .next (s.complete job rx) := by
  rw [step_run hr hs, State.advance_complete ha hp]

end Sys2Proof.Machine
end

