-- ==== Sys2Proof/Laws/PerInstr.lean ====
section
/-! SUPPORT. The family `Level`: an instruction is encoded as a request on the command port exactly if it is one of the
15 operations (30_encoding.md R92, R94; 45_control_ops.md R195), constructor by constructor. -/

namespace Sys2Proof.Laws.Level

/-- Encoded as a request on the command port if and only if a request of the command set names it. -/
def Statement (i : Instr) : Prop := (∃ p, encode i = .request p) ↔ ∃ r : Request, i = Instr.ofRequest r

/-- An instruction of the operation level. -/
theorem of_request (r : Request) : Statement (Instr.ofRequest r) :=
  ⟨fun _ => ⟨r, rfl⟩, fun _ => by cases r <;> exact ⟨_, rfl⟩⟩

/-- An instruction whose encoding is a bracket. -/
theorem of_bracket {i : Instr} (ps : List Prim) (h : encode i = .bracket ps) : Statement i := by
  constructor
  · rintro ⟨p, hp⟩
    rw [h] at hp
    cases hp
  · rintro ⟨r, rfl⟩
    cases r <;> cases h

theorem readStatusRegisters : Statement .readStatusRegisters := of_request .readStatusRegisters
theorem writeStatusRegisters (sr1 sr2 : Flags8) : Statement (.writeStatusRegisters sr1 sr2) := of_request (.writeStatusRegisters sr1 sr2)
theorem readData (addr : AddrIn) : Statement (.readData addr) := of_request (.readData addr)
theorem fastReadData (addr : AddrIn) (n : Nat) : Statement (.fastReadData addr n) := of_request (.fastReadData addr n)
theorem pageProgram (addr : AddrIn) (data : List Byte) : Statement (.pageProgram addr data) := of_request (.pageProgram addr data)
theorem readSecurityRegister (addr : AddrIn) (n : Nat) : Statement (.readSecurityRegister addr n) := of_request (.readSecurityRegister addr n)
theorem sectorErase4KB (addr : AddrIn) : Statement (.sectorErase4KB addr) := of_request (.sectorErase4KB addr)
theorem blockErase32KB (addr : AddrIn) : Statement (.blockErase32KB addr) := of_request (.blockErase32KB addr)
theorem blockErase64KB (addr : AddrIn) : Statement (.blockErase64KB addr) := of_request (.blockErase64KB addr)
theorem chipErase : Statement .chipErase := of_request .chipErase
theorem suspend : Statement .suspend := of_request .suspend
theorem resume : Statement .resume := of_request .resume
theorem powerDown : Statement .powerDown := of_request .powerDown
theorem releasePowerDown : Statement .releasePowerDown := of_request .releasePowerDown
theorem deviceID : Statement .deviceID := of_request .deviceID
theorem wireWriteEnable : Statement .wireWriteEnable := of_bracket _ rfl
theorem wireVolatileSRWriteEnable : Statement .wireVolatileSRWriteEnable := of_bracket _ rfl
theorem wireWriteDisable : Statement .wireWriteDisable := of_bracket _ rfl
theorem wireReadStatusReg1 : Statement .wireReadStatusReg1 := of_bracket _ rfl
theorem wireReadStatusReg2 : Statement .wireReadStatusReg2 := of_bracket _ rfl
theorem wireWriteStatusReg (p1 p2 : Byte) : Statement (.wireWriteStatusReg p1 p2) := of_bracket _ rfl
theorem wirePageProgram (addr : FlashAddress) (out : List Byte) : Statement (.wirePageProgram addr out) := of_bracket _ rfl
theorem wireSectorErase4KB (addr : FlashAddress) : Statement (.wireSectorErase4KB addr) := of_bracket _ rfl
theorem wireBlockErase32KB (addr : FlashAddress) : Statement (.wireBlockErase32KB addr) := of_bracket _ rfl
theorem wireBlockErase64KB (addr : FlashAddress) : Statement (.wireBlockErase64KB addr) := of_bracket _ rfl
theorem wireChipErase : Statement .wireChipErase := of_bracket _ rfl
theorem wireEraseProgramSuspend : Statement .wireEraseProgramSuspend := of_bracket _ rfl
theorem wireEraseProgramResume : Statement .wireEraseProgramResume := of_bracket _ rfl
theorem wirePowerDown : Statement .wirePowerDown := of_bracket _ rfl
theorem wireReadData (addr : FlashAddress) : Statement (.wireReadData addr) := of_bracket _ rfl
theorem wireFastRead (addr : FlashAddress) (n : Nat) : Statement (.wireFastRead addr n) := of_bracket _ rfl
theorem wireReleasePowerDown : Statement .wireReleasePowerDown := of_bracket _ rfl
theorem wireReadSecurityRegister (addr : FlashAddress) (n : Nat) : Statement (.wireReadSecurityRegister addr n) := of_bracket _ rfl
theorem wireDeviceIdProbe : Statement .wireDeviceIdProbe := of_bracket _ rfl

end Sys2Proof.Laws.Level
end

