-- ==== Sys2Proof/Laws/Run.lean ====
section
/-! SUPPORT. Runs of several steps: how they split, and what the steps through the rest of a micro-program do. -/

namespace Sys2Proof.Machine

open Sys2Proof (core)

/-- A run of `k + 1` steps is one step and a run of `k`. -/
theorem run_succ {s t : State} (h : step s = .next t) (k : Nat) :
    Host.Core.run core (k + 1) s = Host.Core.run core k t := by
  have hc : core.step s = step s := rfl
  simp only [Host.Core.run, hc, h]

/-- The first step of a run that answers a next state. -/
theorem run_succ_next {s t : State} {k : Nat} (h : Host.Core.run core (k + 1) s = .next t) :
    ∃ u, step s = .next u ∧ Host.Core.run core k u = .next t := by
  have hc : core.step s = step s := rfl
  cases hs : step s with
  | next u => exact ⟨u, rfl, by rwa [run_succ hs] at h⟩
  | fault r => simp only [Host.Core.run, hc, hs, reduceCtorEq] at h
  | refused r => simp only [Host.Core.run, hc, hs, reduceCtorEq] at h

/-- A run splits where a first part of it answers a next state. -/
theorem run_add {m : Nat} : ∀ {s t : State}, Host.Core.run core m s = .next t →
    ∀ k, Host.Core.run core (m + k) s = Host.Core.run core k t := by
  induction m with
  | zero =>
    intro s t h k
    injection h with h
    subst h
    simp
  | succ m ih =>
    intro s t h k
    obtain ⟨u, hu, h⟩ := run_succ_next h
    rw [show m + 1 + k = (m + k) + 1 by omega, run_succ hu]
    exact ih h k

/-- Chip-select after the given primitives. -/
def lastLevel : ChipSelect → List Prim → ChipSelect
  | l, [] => l
  | _, .sel :: ps => lastLevel .asserted ps
  | _, .desel :: ps => lastLevel .deasserted ps
  | l, .tx _ :: ps => lastLevel l ps
  | l, .rx :: ps => lastLevel l ps

/-- A micro-program that ends with DESEL leaves chip-select deasserted. -/
@[simp] theorem lastLevel_append_desel (ps : List Prim) : ∀ l, lastLevel l (ps ++ [.desel]) = .deasserted := by
  induction ps with
  | nil => intro l; rfl
  | cons p ps ih => intro l; cases p <;> exact ih _

/-- The steps through the rest `ps` of a micro-program, under the three premises: where they lead and what they leave
as it was. -/
theorem run_rest (job : Job) (prog : List Prim) : ∀ (ps before : List Prim) (rx : List Byte) (s : State),
    prog = before ++ ps → s.seq = .run job prog before.length rx → Ready ps.length s →
    ∃ bs : List Byte, bs.length = ps.count .rx ∧
      (ps.count .rx ≤ s.answers.length → bs = s.answers.take (ps.count .rx)) ∧
      Host.Core.run core ps.length s = .next { s with
        seq := .run job prog prog.length (rx ++ bs)
        sel := lastLevel s.sel ps
        trace := s.trace ++ playback ps bs
        answers := s.answers.drop (ps.count .rx)
        draws := s.draws + (ps.count .rx - s.answers.length)
        stallIn := s.stallIn.map (· - ps.length) } := by
  intro ps
  induction ps with
  | nil =>
    intro before rx s hp hs _
    refine ⟨[], rfl, fun _ => rfl, ?_⟩
    have hpos : prog.length = before.length := by simp [hp]
    show Host.Outcome.next s = _
    congr 1
    cases s
    simp_all [playback, lastLevel]
  | cons p ps ih =>
    intro before rx s hp hs hr
    obtain ⟨ha, hst, hrst⟩ := hr
    have hget : prog[before.length]? = some p := by simp [hp]
    have hstep := step_perform hrst ha (stallTick_all hst).1 hs hget
    have hlen : (before ++ [p]).length = before.length + 1 := by simp
    have hready : Ready ps.length (s.perform job prog before.length rx p) :=
      ⟨(State.perform_otherAgent ..).trans ha, (stallTick_all hst).2, (State.perform_rst ..).trans hrst⟩
    obtain ⟨bs, hbs, hans, hrun⟩ := ih (before ++ [p]) (rx ++ s.received p) (s.perform job prog before.length rx p)
      (by simp [hp]) (by rw [State.perform_seq, hlen]) hready
    refine ⟨s.received p ++ bs, ?_, ?_, ?_⟩
    · cases p <;> simp [State.received, hbs]
    · intro h
      cases p <;> cases ha' : s.answers <;> simp_all [State.received, State.consumed, State.takeByte, State.nextByte]
    · rw [List.length_cons, run_succ hstep, hrun]
      cases p <;> cases ha' : s.answers <;> first
        | simp [playback, State.perform, State.consumed, State.takeByte, State.received, State.eventOf, ha', stallTick_map,
            lastLevel, State.levelAfter]
          done
        | simp [playback, State.perform, State.consumed, State.takeByte, State.received, State.eventOf, ha', stallTick_map,
            lastLevel, State.levelAfter, Nat.add_comm, Nat.add_left_comm]

end Sys2Proof.Machine
end

