-- ==== Sys2Proof/Tests/Slice0.lean ====
section
/-! SUPPORT. Tests: ill-formed terms, decoding of words written out from 30_encoding.md, the vectors of
95_test_vectors.md (S1 to S7, tables A to G), and for every statement with premises a state and operands that meet
them. -/

namespace Sys2Proof.Tests

open Sys2Proof.Machine

/-! ### WellFormed: an ill-formed term for each check, with the boundary beside it (00_scope.md R6; 30_encoding.md R87) -/

theorem test_illFormed_fastReadData : ¬ (Instr.fastReadData 0#32 65536).WellFormed := by decide
theorem test_illFormed_readSecurityRegister : ¬ (Instr.readSecurityRegister 0#32 65536).WellFormed := by decide
theorem test_illFormed_pageProgram : ¬ (Instr.pageProgram 0#32 (List.replicate 65536 0xAA#8)).WellFormed := by
  rw [Instr.WellFormed, Instr.wellFormed, List.length_replicate]
  decide
theorem test_illFormed_wireFastRead : ¬ (Instr.wireFastRead 0#24 65536).WellFormed := by decide
theorem test_illFormed_wireReadSecurityRegister : ¬ (Instr.wireReadSecurityRegister 0#24 65536).WellFormed := by decide
theorem test_illFormed_wirePageProgram : ¬ (Instr.wirePageProgram 0#24 (List.replicate 257 0xAA#8)).WellFormed := by
  rw [Instr.WellFormed, Instr.wellFormed, List.length_replicate]
  decide
theorem test_wellFormed_boundaries :
    (Instr.fastReadData 0#32 65535).WellFormed ∧ (Instr.readSecurityRegister 0#32 65535).WellFormed ∧
      (Instr.wireFastRead 0#24 65535).WellFormed ∧ (Instr.wireReadSecurityRegister 0#24 65535).WellFormed ∧
      (Instr.wirePageProgram 0#24 (List.replicate 256 0xAA#8)).WellFormed ∧
      (Instr.pageProgram 0#32 (List.replicate 65535 0xAA#8)).WellFormed := by
  simp only [Instr.WellFormed, Instr.wellFormed, List.length_replicate]
  decide

/-! ### Decoding -/

/-- A request with every operand input set, whatever the selector. -/
def asked (k : BitVec 4) : PortRequest where
  selector := k
  addr := 0x01000010#32
  n := 2#16
  data := [0xDE#8, 0xAD#8]
  sr1 := ⟨false, false, true, true, false, false, false, false⟩
  sr2 := ⟨false, true, false, false, false, false, false, false⟩

-- selectors of 30_encoding.md R92
theorem test_decode_selector0 : decode (.request (asked 0b0000#4)) = .ok .readStatusRegisters := rfl
theorem test_decode_selector1 : decode (.request (asked 0b0001#4)) =
    .ok (.writeStatusRegisters (srDec 0x0C#8) (srDec 0x02#8)) := rfl
theorem test_decode_selector2 : decode (.request (asked 0b0010#4)) = .ok (.readData 0x01000010#32) := rfl
theorem test_decode_selector3 : decode (.request (asked 0b0011#4)) = .ok (.fastReadData 0x01000010#32 2) := rfl
theorem test_decode_selector4 : decode (.request (asked 0b0100#4)) =
    .ok (.pageProgram 0x01000010#32 [0xDE#8, 0xAD#8]) := rfl
theorem test_decode_selector5 : decode (.request (asked 0b0101#4)) = .ok (.readSecurityRegister 0x01000010#32 2) := rfl
theorem test_decode_selector6 : decode (.request (asked 0b0110#4)) = .ok (.sectorErase4KB 0x01000010#32) := rfl
theorem test_decode_selector7 : decode (.request (asked 0b0111#4)) = .ok (.blockErase32KB 0x01000010#32) := rfl
theorem test_decode_selector8 : decode (.request (asked 0b1000#4)) = .ok (.blockErase64KB 0x01000010#32) := rfl
theorem test_decode_selector9 : decode (.request (asked 0b1001#4)) = .ok .chipErase := rfl
theorem test_decode_selector10 : decode (.request (asked 0b1010#4)) = .ok .suspend := rfl
theorem test_decode_selector11 : decode (.request (asked 0b1011#4)) = .ok .resume := rfl
theorem test_decode_selector12 : decode (.request (asked 0b1100#4)) = .ok .powerDown := rfl
theorem test_decode_selector13 : decode (.request (asked 0b1101#4)) = .ok .releasePowerDown := rfl
theorem test_decode_selector14 : decode (.request (asked 0b1110#4)) = .ok .deviceID := rfl
-- 30_encoding.md R93: 15 names no operation
theorem test_decode_selector15 : decode (.request (asked 0b1111#4)) = .error (.noOperation 15#4) := rfl

-- brackets of 30_encoding.md R83, R90, the opcode in the binary of R90
theorem test_decode_I1 : decode (.bracket [.sel, .tx 0b00000110#8, .desel]) = .ok .wireWriteEnable := rfl
theorem test_decode_I2 : decode (.bracket [.sel, .tx 0b01010000#8, .desel]) = .ok .wireVolatileSRWriteEnable := rfl
theorem test_decode_I3 : decode (.bracket [.sel, .tx 0b00000100#8, .desel]) = .ok .wireWriteDisable := rfl
theorem test_decode_I4 : decode (.bracket [.sel, .tx 0b00000101#8, .rx, .desel]) = .ok .wireReadStatusReg1 := rfl
theorem test_decode_I5 : decode (.bracket [.sel, .tx 0b00110101#8, .rx, .desel]) = .ok .wireReadStatusReg2 := rfl
theorem test_decode_I6 : decode (.bracket [.sel, .tx 0b00000001#8, .tx 0x0C#8, .tx 0x02#8, .desel]) =
    .ok (.wireWriteStatusReg 0x0C#8 0x02#8) := rfl
theorem test_decode_I7 : decode (.bracket [.sel, .tx 0b00000010#8, .tx 0x12#8, .tx 0x34#8, .tx 0x56#8, .tx 0xAA#8, .desel]) =
    .ok (.wirePageProgram 0x123456#24 [0xAA#8]) := rfl
theorem test_decode_I8 : decode (.bracket [.sel, .tx 0b00100000#8, .tx 0x12#8, .tx 0x34#8, .tx 0x56#8, .desel]) =
    .ok (.wireSectorErase4KB 0x123456#24) := rfl
theorem test_decode_I9 : decode (.bracket [.sel, .tx 0b01010010#8, .tx 0xAB#8, .tx 0xCD#8, .tx 0xEF#8, .desel]) =
    .ok (.wireBlockErase32KB 0xABCDEF#24) := rfl
theorem test_decode_I10 : decode (.bracket [.sel, .tx 0b11011000#8, .tx 0xAB#8, .tx 0xCD#8, .tx 0xEF#8, .desel]) =
    .ok (.wireBlockErase64KB 0xABCDEF#24) := rfl
theorem test_decode_I11 : decode (.bracket [.sel, .tx 0b11000111#8, .desel]) = .ok .wireChipErase := rfl
theorem test_decode_I12 : decode (.bracket [.sel, .tx 0b01110101#8, .desel]) = .ok .wireEraseProgramSuspend := rfl
theorem test_decode_I13 : decode (.bracket [.sel, .tx 0b01111010#8, .desel]) = .ok .wireEraseProgramResume := rfl
theorem test_decode_I14 : decode (.bracket [.sel, .tx 0b10111001#8, .desel]) = .ok .wirePowerDown := rfl
theorem test_decode_I15 : decode (.bracket [.sel, .tx 0b00000011#8, .tx 0x12#8, .tx 0x34#8, .tx 0x56#8, .rx, .desel]) =
    .ok (.wireReadData 0x123456#24) := rfl
theorem test_decode_I16 :
    decode (.bracket [.sel, .tx 0b00001011#8, .tx 0x12#8, .tx 0x34#8, .tx 0x56#8, .tx 0x00#8, .rx, .rx, .desel]) =
    .ok (.wireFastRead 0x123456#24 2) := rfl
theorem test_decode_I17 : decode (.bracket [.sel, .tx 0b10101011#8, .desel]) = .ok .wireReleasePowerDown := rfl
theorem test_decode_I18 :
    decode (.bracket [.sel, .tx 0b01001000#8, .tx 0x00#8, .tx 0x10#8, .tx 0x00#8, .tx 0x00#8, .rx, .desel]) =
    .ok (.wireReadSecurityRegister 0x001000#24 1) := rfl
theorem test_decode_I19 :
    decode (.bracket [.sel, .tx 0b10101011#8, .tx 0x00#8, .tx 0x00#8, .tx 0x00#8, .rx, .desel]) =
    .ok .wireDeviceIdProbe := rfl

-- brackets the catalogue does not have (30_encoding.md R91, R96; 95_test_vectors.md G)
theorem test_reject_manufacturerId : decode (.bracket [.sel, .tx 0x90#8, .desel]) = .error (.noSuchOpcode 0x90#8) := rfl
theorem test_reject_jedecId : decode (.bracket [.sel, .tx 0x9F#8, .rx, .desel]) = .error (.noSuchOpcode 0x9F#8) := rfl
theorem test_reject_twoOpcodes : decode (.bracket [.sel, .tx 0x06#8, .tx 0xC7#8, .desel]) = .error (.wrongLayout 0x06#8) := rfl
theorem test_reject_statusPair : decode (.bracket [.sel, .tx 0x05#8, .rx, .rx, .desel]) = .error (.wrongLayout 0x05#8) := rfl
theorem test_reject_shortProbe :
    decode (.bracket [.sel, .tx 0xAB#8, .tx 0x00#8, .tx 0x00#8, .rx, .desel]) = .error (.wrongLayout 0xAB#8) := rfl
theorem test_reject_nonzeroDummy :
    decode (.bracket [.sel, .tx 0x0B#8, .tx 0x00#8, .tx 0x01#8, .tx 0x00#8, .tx 0x01#8, .rx, .desel]) =
    .error (.wrongLayout 0x0B#8) := rfl
theorem test_reject_bothDirections :
    decode (.bracket [.sel, .tx 0x05#8, .rx, .tx 0x00#8, .desel]) = .error .notABracket := rfl
theorem test_reject_openBracket : decode (.bracket [.sel, .tx 0x06#8]) = .error .notABracket := rfl
set_option maxRecDepth 4000 in
theorem test_reject_longPage :
    decode (.bracket ([.sel, .tx 0x02#8, .tx 0x00#8, .tx 0x00#8, .tx 0x00#8] ++ List.replicate 257 (.tx 0xAA#8) ++ [.desel])) =
    .error (.wrongLayout 0x02#8) := rfl

-- the host's numbering of words (log 12)
theorem test_tableWord_operation : decodeTableWord 8 0b1001 = some .chipErase := by decide
theorem test_tableWord_selector15 : decodeTableWord 8 0b1111 = none := by decide
theorem test_tableWord_bracket : decodeTableWord 8 0xB9 = some .wirePowerDown := by decide
theorem test_tableWord_operands : decodeTableWord 32 0x56341220 = some (.wireSectorErase4KB 0x123456#24) := by decide

/-! ### Codecs: 95_test_vectors.md tables A, B, C -/

theorem test_addrEnc_scenario : addrEnc 0x00001000#32 = [0x00#8, 0x10#8, 0x00#8] := by decide
theorem test_addrEnc_order : addrEnc 0x00ABCDEF#32 = [0xAB#8, 0xCD#8, 0xEF#8] := by decide
theorem test_addrEnc_bit23 : addrEnc 0x00800000#32 = [0x80#8, 0x00#8, 0x00#8] := by decide
theorem test_addrEnc_truncates : addrEnc 0xFF123456#32 = [0x12#8, 0x34#8, 0x56#8] := by decide
theorem test_trunc24_aliases : trunc24 0x01000000#32 = 0x000000#24 ∧ trunc24 0xFFFFFFFF#32 = 0xFFFFFF#24 := by decide
theorem test_decodeBytes : decodeBytes [0x7F#8, 0xFF#8, 0xFF#8] = some 0x7FFFFF := by decide
theorem test_srDec_sr1 : (sr1Flag (srDec 0xA5#8) .BUSY, sr1Flag (srDec 0xA5#8) .WEL, sr1Flag (srDec 0xA5#8) .BP0,
    sr1Flag (srDec 0xA5#8) .TB, sr1Flag (srDec 0xA5#8) .SRP0) = (true, false, true, true, true) := by decide
theorem test_srDec_sr2 : (sr2Flag (srDec 0x5A#8) .SRP1, sr2Flag (srDec 0x5A#8) .QE, sr2Flag (srDec 0x5A#8) .LB1,
    sr2Flag (srDec 0x5A#8) .LB2, sr2Flag (srDec 0x5A#8) .CMP) = (false, true, true, true, true) := by decide
theorem test_srEnc : srEnc ⟨true, false, false, false, false, false, false, true⟩ = 0x81#8 := by decide
theorem test_srEncPair : srEncPair ⟨false, false, true, true, false, false, false, false⟩
    ⟨false, true, false, false, false, false, false, false⟩ = (0x0C#8, 0x02#8) := by decide
theorem test_srDecPair : (srDecPair 0x03#8 0x80#8).2.f7 = true ∧ (srDecPair 0x80#8 0x03#8).1.f7 = true := by decide
theorem test_clamp256 : [0, 1, 255, 256, 257, 300, 65535].map clamp256 = [0, 1, 255, 256, 256, 256, 256] := by decide

/-! ### The instructions: what each puts on the bus (95_test_vectors.md D) and gives back -/

/-- The primitives an instruction starts with from reset, none where it starts nothing. -/
def started (i : Instr) : List Prim :=
  match exec i State.reset with
  | .next t =>
    match t.seq with
    | .run _ prog _ _ => prog
    | .idle => []
  | _ => []

/-- The trace of an instruction in the compact form (30_encoding.md R101) where the given bytes are answered. -/
def onTheBus (i : Instr) (answers : List Byte) : String := String.ofList (compact false (playback (started i) answers))

/-- What is shown on `done` after the last step of a request that received `rx`. -/
def delivers (r : Request) (rx : List Byte) : Option Result :=
  match step { State.reset with seq := .run (.operation r) r.expand r.expand.length rx } with
  | .next t => t.done
  | _ => none

theorem test_readStatusRegisters_bus : onTheBus .readStatusRegisters [0x03#8, 0x80#8] = "[05 <03] [35 <80]" := by decide
theorem test_readStatusRegisters_result : delivers .readStatusRegisters [0x1C#8, 0x02#8] =
    some (.flags ⟨false, false, true, true, true, false, false, false⟩
      ⟨false, true, false, false, false, false, false, false⟩) := by decide
theorem test_writeStatusRegisters_bus :
    onTheBus (.writeStatusRegisters (srDec 0x03#8) (srDec 0x80#8)) [] = "[06] [01 03 80]" := by decide
theorem test_readData_bus : onTheBus (.readData 0x01000010#32) [0x77#8] = "[03 00 00 10 <77]" := by decide
theorem test_readData_result : delivers (.readData 0x123456#32) [0x5A#8] = some (.byte 0x5A#8) := by decide
theorem test_fastReadData_bus : onTheBus (.fastReadData 0x7FFFFE#32 3) [0x01#8, 0x02#8, 0x03#8] =
    "[0B 7F FF FE 00 <01 <02 <03]" := by decide
theorem test_fastReadData_zero : onTheBus (.fastReadData 0x000100#32 0) [] = "[0B 00 01 00 00]" := by decide
theorem test_readSecurityRegister_bus : onTheBus (.readSecurityRegister 0x001000#32 2) [0x11#8, 0x22#8] =
    "[48 00 10 00 00 <11 <22]" := by decide
theorem test_readSecurityRegister_result : delivers (.readSecurityRegister 0x001000#32 2) [0x11#8, 0x22#8] =
    some (.bytes [0x11#8, 0x22#8]) := by decide
theorem test_deviceID_bus : onTheBus .deviceID [0x16#8] = "[AB 00 00 00 <16]" := by decide
theorem test_deviceID_result : delivers .deviceID [0x16#8] = some (.byte 0x16#8) := by decide
theorem test_pageProgram_bus : onTheBus (.pageProgram 0x0010FF#32 [0x01#8]) [] = "[06] [02 00 10 FF 01]" := by decide
set_option maxRecDepth 4000 in
theorem test_pageProgram_clamps : (started (.pageProgram 0#32 (List.replicate 300 0xAA#8))).length = 265 := by decide
theorem test_sectorErase4KB_bus : onTheBus (.sectorErase4KB 0x001234#32) [] = "[06] [20 00 12 34]" := by decide
theorem test_blockErase32KB_bus : onTheBus (.blockErase32KB 0x008000#32) [] = "[06] [52 00 80 00]" := by decide
theorem test_blockErase64KB_bus : onTheBus (.blockErase64KB 0xFF010000#32) [] = "[06] [D8 01 00 00]" := by decide
theorem test_chipErase_bus : onTheBus .chipErase [] = "[06] [C7]" := by decide
theorem test_suspend_bus : onTheBus .suspend [] = "[75]" := by decide
theorem test_resume_bus : onTheBus .resume [] = "[7A]" := by decide
theorem test_powerDown_bus : onTheBus .powerDown [] = "[B9]" := by decide
theorem test_releasePowerDown_bus : onTheBus .releasePowerDown [] = "[AB]" := by decide
theorem test_chipErase_result : delivers .chipErase [] = some .noValue := by decide

-- the catalogue instructions (30_encoding.md R83, R90)
theorem test_wireWriteEnable_bus : onTheBus .wireWriteEnable [] = "[06]" := by decide
theorem test_wireReadStatusReg1_bus : onTheBus .wireReadStatusReg1 [0x03#8] = "[05 <03]" := by decide
theorem test_wireReadStatusReg2_bus : onTheBus .wireReadStatusReg2 [0x80#8] = "[35 <80]" := by decide
theorem test_wireWriteStatusReg_bus : onTheBus (.wireWriteStatusReg 0x0C#8 0x02#8) [] = "[01 0C 02]" := by decide
theorem test_wirePageProgram_bus : onTheBus (.wirePageProgram 0x001000#24 [0xAA#8, 0xBB#8]) [] = "[02 00 10 00 AA BB]" := by
  decide
theorem test_wireSectorErase4KB_bus : onTheBus (.wireSectorErase4KB 0x001000#24) [] = "[20 00 10 00]" := by decide
theorem test_wireBlockErase32KB_bus : onTheBus (.wireBlockErase32KB 0x008000#24) [] = "[52 00 80 00]" := by decide
theorem test_wireBlockErase64KB_bus : onTheBus (.wireBlockErase64KB 0x010000#24) [] = "[D8 01 00 00]" := by decide
theorem test_wireChipErase_bus : onTheBus .wireChipErase [] = "[C7]" := by decide
theorem test_wireEraseProgramSuspend_bus : onTheBus .wireEraseProgramSuspend [] = "[75]" := by decide
theorem test_wireEraseProgramResume_bus : onTheBus .wireEraseProgramResume [] = "[7A]" := by decide
theorem test_wirePowerDown_bus : onTheBus .wirePowerDown [] = "[B9]" := by decide
theorem test_wireReadData_bus : onTheBus (.wireReadData 0x123456#24) [0x5A#8] = "[03 12 34 56 <5A]" := by decide
theorem test_wireFastRead_bus : onTheBus (.wireFastRead 0x000100#24 1) [0xDE#8] = "[0B 00 01 00 00 <DE]" := by decide
theorem test_wireReleasePowerDown_bus : onTheBus .wireReleasePowerDown [] = "[AB]" := by decide
theorem test_wireReadSecurityRegister_bus : onTheBus (.wireReadSecurityRegister 0x002000#24 0) [] = "[48 00 20 00 00]" := by
  decide
theorem test_wireDeviceIdProbe_bus : onTheBus .wireDeviceIdProbe [0x00#8] = "[AB 00 00 00 <00]" := by decide

-- 95_test_vectors.md F: bursts, an empty payload being no burst (41_sequencer.md R133)
theorem test_bursts_pageProgram : (Request.pageProgram 0x001000#32 (List.replicate 10 0xAA#8)).bursts =
    [.select, .transmit [0x06#8], .deselect, .select, .transmit [0x02#8], .transmit [0x00#8, 0x10#8, 0x00#8],
      .transmit (List.replicate 10 0xAA#8), .deselect] := by decide
theorem test_bursts_deviceID : Request.deviceID.bursts =
    [.select, .transmit [0xAB#8], .transmit [0x00#8, 0x00#8, 0x00#8], .receive 1, .deselect] := by decide
theorem test_bursts_empty : (Request.pageProgram 0x001000#32 []).bursts =
    [.select, .transmit [0x06#8], .deselect, .select, .transmit [0x02#8], .transmit [0x00#8, 0x10#8, 0x00#8], .deselect] := by
  decide

/-! ### One operation step by step: 95_test_vectors.md E -/

/-- The request of table E. -/
def bulk : Request := .fastReadData 0x000100#32 2

/-- A state with a request in hand. -/
def working (r : Request) (pos : Nat) (rx : List Byte) (sel : ChipSelect) (trace : List Event) : State :=
  { State.reset with seq := .run (.operation r) r.expand pos rx, sel := sel, trace := trace }

/-- The trace of table E after its step 6. -/
def header : List Event := [.sel, .tx 0x0B#8, .tx 0x00#8, .tx 0x01#8, .tx 0x00#8, .tx 0x00#8]

/-- The state of table E before its step 7, the oracle scripted. -/
def midway : State := { working bulk 6 [] .asserted header with answers := [0xDE#8, 0xAD#8] }

/-- The next state of a step, the same state where it stops. -/
def stepped (s : State) : State :=
  match step s with
  | .next t => t
  | _ => s

theorem test_step_accepts : stepped { State.reset with port := [encodeRequest bulk] } = working bulk 0 [] .deasserted [] := by
  decide
theorem test_step_selects : (stepped (working bulk 0 [] .deasserted [])).sel = .asserted := by decide
theorem test_step_receives : stepped midway =
    { working bulk 7 [0xDE#8] .asserted (header ++ [.rx 0xDE#8]) with answers := [0xAD#8] } := by decide
theorem test_step_deselects : (stepped (working bulk 8 [0xDE#8, 0xAD#8] .asserted
    (header ++ [.rx 0xDE#8, .rx 0xAD#8]))).sel = .deasserted := by decide
theorem test_step_completes : (stepped (working bulk 9 [0xDE#8, 0xAD#8] .deasserted [])).done =
    some (.bytes [0xDE#8, 0xAD#8]) := by decide
theorem test_step_hangs : step { midway with stallIn := some 0 } = .fault .transportNeverCompletes := rfl
theorem test_step_otherAgent : step { midway with otherAgent := true } = .refused .exclusiveBusBroken := rfl
-- 70_reset_and_hazards.md R241
theorem test_step_reset : stepped { midway with rst := true } =
    { State.reset with trace := header ++ [.desel], rst := true, answers := [0xDE#8, 0xAD#8] } := by decide
-- 30_encoding.md R93; 95_test_vectors.md G
theorem test_step_selector15 : stepped { State.reset with port := [asked 15#4] } = { State.reset with port := [asked 15#4] } := by
  decide
-- where the script is empty the oracle is drawn, under the next number (41_sequencer.md R139; log 1)
theorem test_step_draws : (stepped (working bulk 6 [] .asserted header)).draws = 1 := by decide
theorem test_fetchWord_operation : (stepped (State.reset.withFetchWord 8 0b1001)).seq =
    .run (.operation .chipErase) Request.chipErase.expand 0 [] := by decide
theorem test_fetchWord_bracket : (stepped (State.reset.withFetchWord 8 0xC7)).seq =
    .run (.bracket ⟨.chipErase, 0#24, [], 0⟩) [.sel, .tx 0xC7#8, .desel] 0 [] := by decide

/-! ### Witnesses: premises that are met together -/

/-- `Idle`, all three premises, a past, a script and a waiting request. -/
def ready : State :=
  { State.reset with
    port := [encodeRequest .suspend]
    done := some .noValue
    delivered := [.noValue]
    trace := [.sel, .tx 0xB9#8, .desel]
    answers := [0x03#8, 0x80#8] }

/-- `Idle` before a transport that completes `k` primitives and no more. -/
def stalling (k : Nat) : State := { ready with stallIn := some k }

/-- The transport hangs after the last primitive of an operation of 7, before it, or never. -/
theorem witness_ready : ready.seq = .idle ∧ Ready 7 ready ∧ Ready 7 (stalling 7) ∧ ¬ Ready 7 (stalling 6) := by decide

theorem witness_ReadStatusRegistersReadsBothRegisters :
    (asked 0#4).selector = 0#4 ∧ (stalling 8).seq = .idle ∧ Ready 8 (stalling 8) := by decide
theorem witness_WriteStatusRegistersSendsBothBytes :
    (asked 1#4).selector = 1#4 ∧ (stalling 8).seq = .idle ∧ Ready 8 (stalling 8) := by decide
theorem witness_ReadDataReadsOneByte : (asked 2#4).selector = 2#4 ∧ (stalling 7).seq = .idle ∧ Ready 7 (stalling 7) := by decide
theorem witness_FastReadDataReadsNBytes :
    (asked 3#4).selector = 3#4 ∧ (stalling 9).seq = .idle ∧ Ready (7 + 2) (stalling 9) := by decide
theorem witness_ReadSecurityRegisterReadsNBytes :
    (asked 5#4).selector = 5#4 ∧ (stalling 7).seq = .idle ∧ Ready (7 + 0) (stalling 7) := by decide
theorem witness_DeviceIDProbesWithTheReleaseOpcode :
    (asked 14#4).selector = 14#4 ∧ (stalling 7).seq = .idle ∧ Ready 7 (stalling 7) := by decide
theorem witness_PageProgramSendsTheLeadingPage :
    (asked 4#4).selector = 4#4 ∧ (stalling 11).seq = .idle ∧
      Ready (9 + min [0xDE#8, 0xAD#8].length 256) (stalling 11) := by decide
theorem witness_AddressedErasesSendOpcodeAndAddress :
    (asked 6#4).selector = 6#4 ∧ (asked 7#4).selector = 7#4 ∧ (asked 8#4).selector = 8#4 ∧ (stalling 9).seq = .idle ∧
      Ready 9 (stalling 9) := by decide
theorem witness_ChipEraseSendsTheOpcodeAlone :
    (asked 9#4).selector = 9#4 ∧ (stalling 6).seq = .idle ∧ Ready 6 (stalling 6) := by decide
theorem witness_ControlOperationsSendOneByte :
    (asked 10#4).selector = 10#4 ∧ (asked 11#4).selector = 11#4 ∧ (asked 12#4).selector = 12#4 ∧
      (asked 13#4).selector = 13#4 ∧ (stalling 3).seq = .idle ∧ Ready 3 (stalling 3) := by decide
/-- A transport that never hangs, or hangs right after the operation or later, but not one that hangs before its end; and
both sides of the script's clause: enough answers for a read of two bytes, not enough for one of three. -/
theorem witness_EveryOperationRunsToTheEnd : ready.seq = .idle ∧ Ready bulk.expand.length ready ∧
    Ready bulk.expand.length (stalling 9) ∧ Ready bulk.expand.length (stalling 10) ∧
    ¬ Ready bulk.expand.length (stalling 8) ∧
    bulk.expand.count .rx ≤ ready.answers.length ∧
    ¬ (Request.fastReadData 0#32 3).expand.count .rx ≤ ready.answers.length := by decide
theorem witness_BareWireInstructionsRunTheirBracket : (stalling 3).seq = .idle ∧ Ready 3 (stalling 3) := by decide
theorem witness_AddressedWireErasesRunTheirBracket : (stalling 6).seq = .idle ∧ Ready 6 (stalling 6) := by decide
theorem witness_WireReadsRunTheirBracket : (stalling 4).seq = .idle ∧ Ready 4 (stalling 4) ∧
    (stalling 7).seq = .idle ∧ Ready 7 (stalling 7) ∧ Ready (7 + 0) (stalling 7) := by decide
theorem witness_WireWritesRunTheirBracket : (stalling 5).seq = .idle ∧ Ready 5 (stalling 5) ∧
    (stalling 7).seq = .idle ∧ Ready (6 + min [0xAA#8].length 256) (stalling 7) := by decide

/-- The largest address that is kept, and the first that is cut. -/
theorem witness_AddressIsTruncatedTo24Bits : (0xFFFFFF#32).toNat ≤ 0xFFFFFF ∧ ¬ (0x1000000#32).toNat ≤ 0xFFFFFF := by decide
theorem witness_AddressBytesAreMostSignificantFirst : 0 < 8 ∧ 7 < 8 := by decide
theorem witness_AddressEncodingRoundTrips : addrEnc 0x01000010#32 = addrEnc 0x00000010#32 ∧
    addrEnc 0xFFFFFF#24 = addrEnc 0xFFFFFF#24 ∧ addrEnc 0xFFFFFF#32 ≠ addrEnc 0x1000000#32 := by decide
theorem witness_PagePayloadIsTheLeadingPage : 255 < min (List.replicate 257 0xAA#8).length 256 ∧
    ¬ 256 < min (List.replicate 257 0xAA#8).length 256 ∧ ¬ 0 < min ([] : List Byte).length 256 := by
  simp only [List.length_replicate]
  decide
theorem witness_DecodeOfEncodeIsTheInstruction : (Instr.wirePageProgram 0xFFFFFF#24 (List.replicate 256 0xAA#8)).WellFormed ∧
    (Instr.fastReadData 0xFFFFFFFF#32 65535).WellFormed ∧ Instr.chipErase.WellFormed := by
  simp only [Instr.WellFormed, Instr.wellFormed, List.length_replicate]
  decide
theorem witness_DecodedBracketIsTheEncodersBracket :
    decodeBracket [.sel, .tx 0xAB#8, .tx 0x00#8, .tx 0x00#8, .tx 0x00#8, .rx, .desel] = .ok .wireDeviceIdProbe := rfl
/-- A byte of the list that opens a bracket, and one that is not of the list. -/
theorem witness_OpeningBytesAreTheSixteen : 0xD8#8 ∈ openers (Request.blockErase64KB 0#32).expand ∧
    0x50#8 ∉ [0x01#8, 0x02#8, 0x03#8, 0x05#8, 0x06#8, 0x0B#8, 0x20#8, 0x35#8,
      0x48#8, 0x52#8, 0x75#8, 0x7A#8, 0xAB#8, 0xB9#8, 0xC7#8, 0xD8#8] := by decide
theorem witness_WriteClassHasTheWriteEnableBracket : Request.chipErase.writeClass = true ∧
    Request.suspend.writeClass = false ∧ 0x75#8 ∈ openers Request.suspend.expand := by decide

/-- A request at the head of the port. -/
def queued (p : PortRequest) : State := { ready with port := [p, asked 2#4] }

/-- A pending direct invocation. -/
def called (ps : List Prim) : State := { ready with call := some ps }

theorem witness_StepRunsThePresentedInstruction_request : (queued (asked 9#4)).seq = .idle ∧ NotInReset (queued (asked 9#4)) ∧
    (queued (asked 9#4)).call = none ∧ (queued (asked 9#4)).port = [asked 9#4, asked 2#4] ∧
    decode (.request (asked 9#4)) = .ok .chipErase := ⟨rfl, rfl, rfl, rfl, rfl⟩
theorem witness_StepRunsThePresentedInstruction_call : (called [.sel, .tx 0x06#8, .desel]).seq = .idle ∧
    NotInReset (called [.sel, .tx 0x06#8, .desel]) ∧ (called [.sel, .tx 0x06#8, .desel]).call = some [.sel, .tx 0x06#8, .desel] ∧
    decode (.bracket [.sel, .tx 0x06#8, .desel]) = .ok .wireWriteEnable := ⟨rfl, rfl, rfl, rfl⟩
theorem witness_SelectorFifteenIsNotAccepted : (queued (asked 15#4)).seq = .idle ∧ NotInReset (queued (asked 15#4)) ∧
    (queued (asked 15#4)).call = none ∧ (queued (asked 15#4)).port = [asked 15#4, asked 2#4] ∧
    (asked 15#4).selector = 15#4 := by decide

/-- The premises of a step in `Run`, with the transport answering, for a primitive at a position. -/
abbrev AtPrimitive (s : State) (r : Request) (pos : Nat) (rx : List Byte) (p : Prim) : Prop :=
  s.seq = .run (.operation r) r.expand pos rx ∧ NotInReset s ∧ ExclusiveBus s ∧ s.stallIn ≠ some 0 ∧ r.expand[pos]? = some p

theorem witness_StepPerformsThePrimitive_sel : AtPrimitive (working bulk 0 [] .deasserted []) bulk 0 [] .sel := by decide
theorem witness_StepPerformsThePrimitive_tx :
    AtPrimitive (working bulk 1 [] .asserted [.sel]) bulk 1 [] (.tx 0x0B#8) := by decide
theorem witness_StepPerformsThePrimitive_rx : AtPrimitive midway bulk 6 [] .rx ∧ midway.answers = 0xDE#8 :: [0xAD#8] := by
  decide
theorem witness_StepPerformsThePrimitive_oracle : AtPrimitive (working bulk 6 [] .asserted header) bulk 6 [] .rx ∧
    (working bulk 6 [] .asserted header).answers = [] := by decide
theorem witness_StepPerformsThePrimitive_desel :
    AtPrimitive (working .suspend 2 [] .asserted [.sel, .tx 0x75#8]) .suspend 2 [] .desel := by decide

/-- The premises of completion. -/
abbrev AtTheEnd (s : State) (r : Request) (rx : List Byte) : Prop :=
  s.seq = .run (.operation r) r.expand r.expand.length rx ∧ NotInReset s ∧ ExclusiveBus s

theorem witness_CompletionDeliversTheResult_flags :
    AtTheEnd (working .readStatusRegisters 8 [0x03#8, 0x80#8] .deasserted []) .readStatusRegisters [0x03#8, 0x80#8] := by decide
theorem witness_CompletionDeliversTheResult_byte :
    AtTheEnd (working .deviceID 7 [0x16#8] .deasserted []) .deviceID [0x16#8] := by decide
theorem witness_CompletionDeliversTheResult_bytes :
    AtTheEnd (working bulk 9 [0xDE#8, 0xAD#8] .deasserted []) bulk [0xDE#8, 0xAD#8] := by decide
theorem witness_CompletionDeliversTheResult_noValue :
    AtTheEnd (working .chipErase 6 [] .deasserted []) .chipErase [] ∧ Request.chipErase.writeClass = true := by decide

/-- The first and the last primitive a hang can come at. -/
theorem witness_HungTransportStopsTheSequencer : (stalling 0).seq = .idle ∧ NotInReset (stalling 0) ∧
    ExclusiveBus (stalling 0) ∧ (stalling 0).stallIn = some 0 ∧ 0 < bulk.expand.length ∧ (stalling 8).stallIn = some 8 ∧
    8 < bulk.expand.length ∧ ¬ 9 < bulk.expand.length := by decide
theorem witness_RequestWaitsWhileRunning : midway.seq = .run (.operation bulk) bulk.expand 6 [] ∧
    ∃ t, step midway = .next t := ⟨rfl, _, rfl⟩
theorem witness_SharedBusIsRefused : ({ midway with otherAgent := true } : State).seq = .run (.operation bulk) bulk.expand 6 [] ∧
    NotInReset { midway with otherAgent := true } ∧ ({ midway with otherAgent := true } : State).otherAgent = true := by decide
theorem witness_OnlyTheNamedStops_fault : HostOnly { midway with stallIn := some 0 } ∧
    step { midway with stallIn := some 0 } = .fault .transportNeverCompletes := ⟨⟨rfl, bulk, rfl⟩, rfl⟩
theorem witness_OnlyTheNamedStops_refused : HostOnly { midway with otherAgent := true } ∧
    step { midway with otherAgent := true } = .refused .exclusiveBusBroken := ⟨⟨rfl, bulk, rfl⟩, rfl⟩
/-- In a hang with chip-select asserted, and between brackets with chip-select deasserted. -/
theorem witness_ResetAbandonsTheOperation :
    ({ midway with rst := true, stallIn := some 0 } : State).rst = true ∧
    ({ midway with rst := true, stallIn := some 0 } : State).sel = .asserted ∧
    ({ working .chipErase 3 [] .deasserted [.sel, .tx 0x06#8, .desel] with rst := true } : State).rst = true := by decide
theorem witness_ResetStateWaitsInIdle : State.reset.seq = .idle ∧ NotInReset State.reset ∧ State.reset.call = none ∧
    State.reset.port = [] := by decide

theorem midway_inv : SequencerInv midway :=
  ⟨by decide, rfl, rfl, by decide, rfl, [], header, rfl, rfl, rfl, rfl⟩
/-- Between the two brackets of a write-class operation. -/
def between : State := working .chipErase 3 [] .deasserted [.sel, .tx 0x06#8, .desel]
theorem between_inv : SequencerInv between :=
  ⟨by decide, rfl, rfl, by decide, rfl, [], [.sel, .tx 0x06#8, .desel], rfl, rfl, rfl, rfl⟩

theorem witness_StepKeepsTheInvariant : SequencerInv midway ∧ ∃ t, step midway = .next t := ⟨midway_inv, _, rfl⟩
theorem witness_StepKeepsTheInvariant_idle : SequencerInv ready ∧ ∃ t, step ready = .next t := ⟨⟨by decide, rfl⟩, _, rfl⟩
theorem witness_StepKeepsOpenersEmittable : SequencerInv midway ∧ OpenersEmittable midway ∧ ∃ t, step midway = .next t :=
  ⟨midway_inv, by unfold OpenersEmittable; decide, _, rfl⟩
theorem witness_StepKeepsWritesArmed : HostOnly between ∧ SequencerInv between ∧ WritesArmed between ∧
    ∃ t, step between = .next t :=
  ⟨⟨rfl, .chipErase, rfl⟩, between_inv, ⟨by decide, trivial⟩, _, rfl⟩
theorem witness_StepKeepsHostOnly : HostOnly (queued (asked 9#4)) ∧ ∃ t, step (queued (asked 9#4)) = .next t :=
  ⟨⟨rfl, trivial⟩, _, rfl⟩
theorem witness_LatchedRequestIsReadOnly : midway.seq = .run (.operation bulk) bulk.expand 6 [] ∧
    ∃ t, step midway = .next t := ⟨rfl, _, rfl⟩
theorem witness_TraceOnlyGrows : ∃ t, step midway = .next t := ⟨_, rfl⟩
theorem witness_StepOnlyTakesFromTheInputs : ∃ t, step (queued (asked 9#4)) = .next t := ⟨_, rfl⟩
/-- A step that counts a primitive off what the transport still completes. -/
theorem witness_StepOnlyTakesFromTheInputs_stallIn :
    (stepped { midway with stallIn := some 2 }).stallIn = some 1 := by decide

/-- Two states of different history, scripts and oracle draws, both one step into the same request. -/
theorem witness_TransmittedBytesDependOnTheRequestAlone : ∃ t1 t2 u1 u2, State.reset.seq = .idle ∧ ready.seq = .idle ∧
    NotInReset State.reset ∧ NotInReset ready ∧ exec (Instr.ofRequest bulk) State.reset = .next t1 ∧
    exec (Instr.ofRequest bulk) ready = .next t2 ∧ 1 ≤ bulk.expand.length ∧ Host.Core.run core 1 t1 = .next u1 ∧
    Host.Core.run core 1 t2 = .next u2 := ⟨_, _, _, _, rfl, rfl, rfl, rfl, rfl, rfl, by decide, rfl, rfl⟩

/-- A host program of three requests waiting on the port. -/
def hostProgram : List Request := [.powerDown, .releasePowerDown, .deviceID]

/-- That program on the port; the transport hangs after its 13 primitives (95_test_vectors.md P3). -/
def programmed : State :=
  { State.reset with port := hostProgram.map encodeRequest, answers := [0x16#8], stallIn := some 13 }

theorem witness_HostProgramRunsInOrder : Ready (hostProgram.map (fun r => r.expand.length)).sum programmed ∧
    programmed.seq = .idle ∧ programmed.sel = .deasserted ∧
    programmed.call = none ∧ programmed.port = hostProgram.map encodeRequest ∧
    ∀ r ∈ hostProgram, (Instr.ofRequest r).WellFormed := by decide

end Sys2Proof.Tests
end

section
/-! SUPPORT. The state family (10_state.md): what an observer reads from a longer trace, that every micro-program is
whole brackets, and the rules of the sequencer's invariant, one per thing a step can do. -/

namespace Sys2Proof.Machine

/-! ### Observing a trace that grows -/

/-- `busLevel` follows a list in two parts: the second starts from the level the first leaves. -/
theorem busLevel_append (ps qs : List Prim) :
    ∀ l, busLevel l (ps ++ qs) = (busLevel l ps).bind fun m => busLevel m qs := by
  induction ps with
  | nil => intro l; simp [busLevel]
  | cons p ps ih => intro l; cases l <;> cases p <;> simp [busLevel, ih]

/-- Where a first part leaves level `m`, the whole is the second part from `m`. -/
theorem busLevel_append_of {ps : List Prim} {l m : ChipSelect} (h : busLevel l ps = some m) (qs : List Prim) :
    busLevel l (ps ++ qs) = busLevel m qs := by
  rw [busLevel_append, h, Option.bind_some]

/-- A primitive that is in order on the bus leaves chip-select as `State.levelAfter` says (10_state.md R24). -/
theorem busLevel_cons {s : State} {p : Prim} {ps : List Prim} {m : ChipSelect}
    (h : busLevel s.sel (p :: ps) = some m) :
    busLevel s.sel [p] = some (s.levelAfter p) ∧ busLevel (s.levelAfter p) ps = some m := by
  cases hsel : s.sel <;> cases p <;> simp_all [busLevel, State.levelAfter]

@[simp] theorem skeleton_append (es fs : List Event) : skeleton (es ++ fs) = skeleton es ++ skeleton fs :=
  List.map_append

@[simp] theorem receivedBytes_append (es fs : List Event) :
    receivedBytes (es ++ fs) = receivedBytes es ++ receivedBytes fs := by
  induction es with
  | nil => rfl
  | cons e es ih => cases e <;> simp [receivedBytes, ih]

/-- The event recorded for a primitive is an event of that primitive (41_sequencer.md R132). -/
@[simp] theorem skeleton_eventOf (s : State) (p : Prim) : skeleton [s.eventOf p] = [p] := by
  cases p <;> rfl

/-- The event recorded for a primitive carries the byte it adds to `rx` (10_state.md R25). -/
@[simp] theorem receivedBytes_eventOf (s : State) (p : Prim) : receivedBytes [s.eventOf p] = s.received p := by
  cases p <;> rfl

/-- A primitive adds at most one byte to `rx`. -/
theorem State.received_length_le (s : State) (p : Prim) : (s.received p).length ≤ 1 := by
  cases p <;> simp [State.received]

/-! ### Brackets and micro-programs -/

/-- Transmitted bytes leave a bracket open. -/
@[simp] theorem busLevel_map_tx (bs : List Byte) : busLevel .asserted (bs.map .tx) = some .asserted := by
  induction bs with
  | nil => rfl
  | cons b bs ih => exact ih

/-- Received bytes leave a bracket open. -/
@[simp] theorem busLevel_replicate_rx (n : Nat) : busLevel .asserted (List.replicate n .rx) = some .asserted := by
  induction n with
  | zero => rfl
  | succ n ih => exact ih

/-- Dummy bytes leave a bracket open. -/
@[simp] theorem busLevel_replicate_tx (n : Nat) (b : Byte) :
    busLevel .asserted (List.replicate n (.tx b)) = some .asserted := by
  rw [← List.map_replicate, busLevel_map_tx]

/-- A bracket runs from chip-select deasserted to chip-select deasserted, every byte in between
(41_sequencer.md R130, R131). -/
theorem busLevel_bracketPrims {w : Nat} (i : Wire) (a : BitVec w) (out : List Byte) (nin : Nat) :
    busLevel .deasserted (bracketPrims i a out nin) = some .deasserted := by
  have hopen : busLevel .deasserted [.sel, .tx i.opcode] = some .asserted := rfl
  have haddr : busLevel .asserted (if i.hasAddr then (addrEnc a).map .tx else []) = some .asserted := by
    split <;> simp [busLevel]
  have hout : busLevel .asserted (if i.sends then out.map .tx else []) = some .asserted := by
    split <;> simp [busLevel]
  have hin : busLevel .asserted (if i.receives then List.replicate nin .rx else []) = some .asserted := by
    split <;> simp [busLevel]
  simp only [bracketPrims, busLevel_append, hopen, haddr, hout, hin, busLevel_replicate_tx, Option.bind_some]
  rfl

/-- Brackets one after another are balanced. -/
theorem busLevel_append_balanced {ps qs : List Prim} (hp : busLevel .deasserted ps = some .deasserted)
    (hq : busLevel .deasserted qs = some .deasserted) : busLevel .deasserted (ps ++ qs) = some .deasserted := by
  rw [busLevel_append_of hp, hq]

/-- A write-class micro-program, the write-enable bracket and one more, is balanced (41_sequencer.md R136). -/
theorem busLevel_wren_append {w : Nat} (i : Wire) (a : BitVec w) (out : List Byte) (nin : Nat) :
    busLevel .deasserted (wren ++ bracketPrims i a out nin) = some .deasserted :=
  busLevel_append_balanced (busLevel_bracketPrims ..) (busLevel_bracketPrims ..)

/-- The micro-program of every operation is balanced (41_sequencer.md R131, R137). -/
theorem busLevel_expand (r : Request) : busLevel .deasserted r.expand = some .deasserted := by
  cases r with
  | readStatusRegisters => exact busLevel_append_balanced (busLevel_bracketPrims ..) (busLevel_bracketPrims ..)
  | writeStatusRegisters | pageProgram | sectorErase4KB | blockErase32KB | blockErase64KB | chipErase =>
    exact busLevel_wren_append ..
  | readData | fastReadData | readSecurityRegister | suspend | resume | powerDown | releasePowerDown | deviceID =>
    exact busLevel_bracketPrims ..

/-- The micro-program of every job is balanced. -/
theorem busLevel_program (job : Job) : busLevel .deasserted job.program = some .deasserted := by
  cases job with
  | operation r => exact busLevel_expand r
  | bracket c => exact busLevel_bracketPrims ..

/-- A bracket receives `nin` bytes where its shape has a received payload, else none (10_state.md R25;
30_encoding.md R82). -/
theorem count_rx_bracketPrims {w : Nat} (i : Wire) (a : BitVec w) (out : List Byte) (nin : Nat) :
    (bracketPrims i a out nin).count .rx = if i.receives then nin else 0 := by
  have htx (bs : List Byte) : (bs.map Prim.tx).count .rx = 0 := List.count_eq_zero.2 (by simp)
  have hdummy : (List.replicate i.dummies (Prim.tx Config.dummyValue)).count .rx = 0 := by
    rw [← List.map_replicate, htx]
  simp only [bracketPrims, List.count_append, hdummy, apply_ite (List.count Prim.rx), htx, List.count_replicate_self]
  simp

/-! ### The invariant of the sequencer -/

/-- SEL and DESEL alternate in the trace and leave chip-select as it stands. -/
theorem SequencerInv.busLevel_trace {s : State} (h : SequencerInv s) :
    busLevel .deasserted (skeleton s.trace) = some s.sel :=
  h.1

/-- The invariant in `Idle`. -/
theorem sequencerInv_idle_iff {s : State} (hs : s.seq = .idle) :
    SequencerInv s ↔ busLevel .deasserted (skeleton s.trace) = some s.sel ∧ s.sel = .deasserted := by
  unfold SequencerInv
  rw [hs]

/-- The invariant in `Run`. -/
theorem sequencerInv_run_iff {s : State} {job : Job} {prog : List Prim} {pos : Nat} {rx : List Byte}
    (hs : s.seq = .run job prog pos rx) :
    SequencerInv s ↔ busLevel .deasserted (skeleton s.trace) = some s.sel ∧
      job.issuable = true ∧ prog = job.program ∧ pos ≤ prog.length ∧ s.done = none ∧
        ∃ past now : List Event, s.trace = past ++ now ∧ busLevel .deasserted (skeleton past) = some .deasserted ∧
          skeleton now = prog.take pos ∧ receivedBytes now = rx := by
  unfold SequencerInv
  rw [hs]

/-- In `Run` the rest of the micro-program takes chip-select from where it stands to deasserted: before the operation
there are whole brackets only, and the micro-program is balanced. -/
theorem SequencerInv.busLevel_rest {s : State} (h : SequencerInv s) {job : Job} {prog : List Prim} {pos : Nat}
    {rx : List Byte} (hs : s.seq = .run job prog pos rx) : busLevel s.sel (prog.drop pos) = some .deasserted := by
  obtain ⟨hbus, -, hprog, -, -, past, now, htrace, hpast, hnow, -⟩ := (sequencerInv_run_iff hs).1 h
  have hdone : busLevel .deasserted (prog.take pos) = some s.sel := by
    rw [← hbus, htrace, skeleton_append, busLevel_append_of hpast, hnow]
  rw [← busLevel_append_of hdone, List.take_append_drop, hprog, busLevel_program]

/-- Reset keeps the invariant: an open bracket is closed (70_reset_and_hazards.md R241). -/
theorem SequencerInv.applyReset {s : State} (h : SequencerInv s) : SequencerInv s.applyReset := by
  refine (sequencerInv_idle_iff (State.applyReset_seq s)).2 ⟨?_, State.applyReset_sel s⟩
  have hbus := h.busLevel_trace
  cases hsel : s.sel with
  | asserted =>
    rw [hsel] at hbus
    have hclosed : busLevel .deasserted (skeleton (s.trace ++ [.desel])) = some .deasserted := by
      rw [skeleton_append, busLevel_append_of hbus]
      rfl
    simpa only [State.applyReset_trace, State.applyReset_sel, hsel] using hclosed
  | deasserted =>
    simpa only [State.applyReset_trace, State.applyReset_sel, hsel] using hbus

/-- Completion keeps the invariant: at the end of the micro-program its last bracket is closed. -/
theorem SequencerInv.complete {s : State} (h : SequencerInv s) {job : Job} {prog : List Prim} {pos : Nat}
    {rx : List Byte} (hs : s.seq = .run job prog pos rx) (hend : prog.length ≤ pos) :
    SequencerInv (s.complete job rx) := by
  have hsel : s.sel = .deasserted := by
    simpa [List.drop_eq_nil_of_le hend, busLevel] using h.busLevel_rest hs
  exact (sequencerInv_idle_iff (State.complete_seq s job rx)).2 ⟨h.busLevel_trace, hsel⟩

/-- Performing the next primitive keeps the invariant: its event, its level and its received byte go together. -/
theorem SequencerInv.perform {s : State} (h : SequencerInv s) {job : Job} {prog : List Prim} {pos : Nat}
    {rx : List Byte} {p : Prim} (hs : s.seq = .run job prog pos rx) (hp : prog[pos]? = some p) :
    SequencerInv (s.perform job prog pos rx p) := by
  obtain ⟨hbus, hiss, hprog, -, hdone, past, now, htrace, hpast, hnow, hrx⟩ := (sequencerInv_run_iff hs).1 h
  obtain ⟨hpos, hget⟩ := List.getElem?_eq_some_iff.1 hp
  have hrest := h.busLevel_rest hs
  rw [List.drop_eq_getElem_cons hpos, hget] at hrest
  refine (sequencerInv_run_iff (State.perform_seq ..)).2
    ⟨?_, hiss, hprog, hpos, ?_, past, now ++ [s.eventOf p], ?_, hpast, ?_, ?_⟩
  · simp [busLevel_append_of hbus, (busLevel_cons hrest).1]
  · simpa using hdone
  · simp [htrace]
  · simp [hnow, List.take_add_one, hp]
  · simp [hrx]

/-- Acceptance makes the invariant of `Idle` that of `Run`: everything recorded so far is past, nothing is received. -/
theorem SequencerInv.start {s : State} (h : SequencerInv s) (hs : s.seq = .idle) {job : Job}
    (hjob : job.issuable = true) : SequencerInv (s.start job job.program) := by
  obtain ⟨hbus, hsel⟩ := (sequencerInv_idle_iff hs).1 h
  exact (sequencerInv_run_iff (State.start_seq ..)).2
    ⟨hbus, hjob, rfl, Nat.zero_le _, rfl, s.trace, [], by simp, hsel ▸ hbus, rfl, rfl⟩

/-- Taking what is presented in `Idle` leaves the invariant: it changes the presented input only. -/
theorem SequencerInv.fetched {s u : State} {i : Instr} (h : SequencerInv s) (hf : s.fetched = some (i, u)) :
    SequencerInv u := by
  obtain ⟨_, _, _, rfl⟩ | ⟨_, _, _, _, _, rfl⟩ := State.fetched_some hf <;> exact h

/-- Giving the sequencer an instruction keeps the invariant. -/
theorem SequencerInv.exec {s t : State} {i : Instr} (h : SequencerInv s) (he : exec i s = .next t) :
    SequencerInv t := by
  obtain rfl | ⟨job, hs, hjob, rfl⟩ := exec_next he
  · exact h
  · exact h.start hs hjob

/-- Settles O47: each of the things a step can do keeps the invariant. -/
theorem stepKeepsTheInvariant : Obligations.StepKeepsTheInvariant := by
  intro s t h hstep
  obtain ⟨-, rfl⟩ | ⟨-, ⟨job, prog, pos, rx, hs, -, hrun⟩ | ⟨-, hidle⟩⟩ := step_cases hstep
  · exact h.applyReset
  · obtain ⟨hend, rfl⟩ | ⟨p, hp, -, rfl⟩ := hrun
    · exact h.complete hs hend
    · exact h.perform hs hp
  · obtain ⟨-, rfl⟩ | ⟨i, u, hf, he⟩ := hidle
    · exact h
    · exact (h.fetched hf).exec he

/-- Settles O46. -/
theorem invariantHoldsAtReset : Obligations.InvariantHoldsAtReset :=
  (sequencerInv_idle_iff rfl).2 ⟨rfl, rfl⟩

/-! ### The latched request, waiting, received counts, flag names -/

/-- Settles O51: in `Run` a step resets, completes, or performs the primitive at `pos`. -/
theorem latchedRequestIsReadOnly : Obligations.LatchedRequestIsReadOnly := by
  intro s t job prog pos rx hs hstep
  obtain ⟨-, rfl⟩ | ⟨-, ⟨job', prog', pos', rx', hs', -, hrun⟩ | ⟨hidle, -⟩⟩ := step_cases hstep
  · exact .inl (State.applyReset_seq s)
  · obtain ⟨rfl, rfl, rfl, rfl⟩ := SeqState.run.inj (hs.symm.trans hs')
    obtain ⟨-, rfl⟩ | ⟨p, -, -, rfl⟩ := hrun
    · exact .inl (State.complete_seq ..)
    · exact .inr ⟨s.received p, s.received_length_le p, State.perform_seq ..⟩
  · rw [hs] at hidle
    cases hidle

/-- With no direct invocation pending and no request on the port nothing is taken. -/
theorem State.fetched_eq_none {s : State} (hcall : s.call = none) (hport : s.port = []) : s.fetched = none := by
  simp only [State.fetched, hcall, hport]

/-- Settles O45: nothing presented is nothing to take. -/
theorem resetStateWaitsInIdle : Obligations.ResetStateWaitsInIdle :=
  ⟨rfl, rfl, rfl, fun _ hs hrst hcall hport => step_wait hrst hs (State.fetched_eq_none hcall hport)⟩

/-- The write-enable bracket receives nothing. -/
theorem count_rx_wren : wren.count .rx = 0 := count_rx_bracketPrims ..

/-- A write-class micro-program receives what its second bracket does. -/
theorem count_rx_wren_append {w : Nat} (i : Wire) (a : BitVec w) (out : List Byte) (nin : Nat) :
    (wren ++ bracketPrims i a out nin).count .rx = if i.receives then nin else 0 := by
  rw [List.count_append, count_rx_wren, Nat.zero_add, count_rx_bracketPrims]

/-- Settles O35: the received payloads of the brackets of each operation. -/
theorem receivedCountIsFixedByTheRequest : Obligations.ReceivedCountIsFixedByTheRequest := by
  intro r
  cases r with
  | readStatusRegisters => rfl
  | writeStatusRegisters | pageProgram | sectorErase4KB | blockErase32KB | blockErase64KB | chipErase =>
    exact count_rx_wren_append ..
  | readData | fastReadData | readSecurityRegister | suspend | resume | powerDown | releasePowerDown | deviceID =>
    exact count_rx_bracketPrims ..

/-- The flag of index `i` of a decoded byte is its bit `i` (40_codecs.md R114). -/
theorem srDec_get (b : Byte) (i : Fin 8) : (srDec b).get i = b.getLsbD i := by
  fin_cases i <;> rfl

/-- Settles O23: each name stands for its index, and the flag of an index is that bit. -/
theorem namedFlagsAreTheirBits : Obligations.NamedFlagsAreTheirBits := by
  intro b
  have hsr1 (name : Sr1Flag) : sr1Flag (srDec b) name = b.getLsbD name.index := srDec_get b _
  have hsr2 (name : Sr2Flag) : sr2Flag (srDec b) name = b.getLsbD name.index := srDec_get b _
  exact ⟨hsr1 .BUSY, hsr1 .WEL, hsr1 .BP0, hsr1 .BP1, hsr1 .BP2, hsr1 .TB, hsr1 .SEC, hsr1 .SRP0,
    hsr2 .SRP1, hsr2 .QE, hsr2 .R, hsr2 .LB1, hsr2 .LB2, hsr2 .LB3, hsr2 .CMP, hsr2 .SUS⟩

end Sys2Proof.Machine
end

section
/-! SUPPORT. The memory family (20_memory.md): what each thing a step can do adds to the two histories, the trace and
the results delivered. -/

namespace Sys2Proof.Machine

/-- Reset records at most the DESEL of an open bracket (70_reset_and_hazards.md R241). -/
theorem State.applyReset_trace_grows (s : State) :
    ∃ new : List Event, new.length ≤ 1 ∧ s.applyReset.trace = s.trace ++ new := by
  rw [State.applyReset_trace]
  cases s.sel with
  | asserted => exact ⟨[.desel], le_rfl, rfl⟩
  | deasserted => exact ⟨[], Nat.zero_le 1, by simp⟩

/-- Taking what is presented in `Idle` records nothing and delivers nothing. -/
theorem State.fetched_keeps_histories {s u : State} {i : Instr} (hf : s.fetched = some (i, u)) :
    u.trace = s.trace ∧ u.delivered = s.delivered := by
  obtain ⟨_, _, _, rfl⟩ | ⟨_, _, _, _, _, rfl⟩ := State.fetched_some hf <;> exact ⟨rfl, rfl⟩

/-- Giving the sequencer an instruction records nothing and delivers nothing (41_sequencer.md R138). -/
theorem exec_keeps_histories {s t : State} {i : Instr} (he : exec i s = .next t) :
    t.trace = s.trace ∧ t.delivered = s.delivered := by
  obtain rfl | ⟨job, -, -, rfl⟩ := exec_next he
  · exact ⟨rfl, rfl⟩
  · exact ⟨State.start_trace .., State.start_delivered ..⟩

/-- Settles O52: reset records at most a DESEL, completion delivers one result, a primitive records one event, and
waiting and acceptance leave both histories. -/
theorem traceOnlyGrows : Obligations.TraceOnlyGrows := by
  intro s t hstep
  obtain ⟨-, rfl⟩ | ⟨-, ⟨job, prog, pos, rx, -, -, hrun⟩ | ⟨-, hidle⟩⟩ := step_cases hstep
  · exact ⟨s.applyReset_trace_grows, [], by simp⟩
  · obtain ⟨-, rfl⟩ | ⟨p, -, -, rfl⟩ := hrun
    · exact ⟨⟨[], by simp⟩, [resultOf job rx], le_rfl, State.complete_delivered ..⟩
    · exact ⟨⟨[s.eventOf p], le_rfl, State.perform_trace ..⟩, [], by simp⟩
  · have hsame : t.trace = s.trace ∧ t.delivered = s.delivered := by
      obtain ⟨-, rfl⟩ | ⟨i, u, hf, he⟩ := hidle
      · exact ⟨rfl, rfl⟩
      · obtain ⟨htrace, hdelivered⟩ := State.fetched_keeps_histories hf
        exact (exec_keeps_histories he).imp (·.trans htrace) (·.trans hdelivered)
    obtain ⟨htrace, hdelivered⟩ := hsame
    exact ⟨⟨[], by simp [htrace]⟩, [], by simp [hdelivered]⟩

end Sys2Proof.Machine
end

section
/-! SUPPORT. The encoding family (30_encoding.md): a bracket's body and its reading, what each layout reads, decoding
beside encoding, the openers of brackets and micro-programs, and the catalogue instructions run to their end. -/

namespace Sys2Proof.Machine

/-! ### The three address bytes -/

/-- A 24-bit address is encoded as it is (40_codecs.md R110, R111). -/
theorem addrEnc_flashAddress (a : FlashAddress) :
    addrEnc a = [a.extractLsb' 16 8, a.extractLsb' 8 8, a.extractLsb' 0 8] := by
  simp [addrEnc, trunc24]

/-- Joining the bytes of an address gives it back. -/
@[simp] theorem joinAddr_extract (a : FlashAddress) :
    joinAddr (a.extractLsb' 16 8) (a.extractLsb' 8 8) (a.extractLsb' 0 8) = a := by
  unfold joinAddr
  rw [BitVec.extractLsb'_append_extractLsb'_eq_extractLsb' (by decide),
    BitVec.extractLsb'_append_extractLsb'_eq_extractLsb' (by decide)]
  exact BitVec.extractLsb'_eq_self

/-- Encoding a joined address gives its bytes back. -/
@[simp] theorem addrEnc_joinAddr (a2 a1 a0 : Byte) : addrEnc (joinAddr a2 a1 a0) = [a2, a1, a0] := by
  have h2 : (joinAddr a2 a1 a0).extractLsb' 16 8 = a2 :=
    (BitVec.extractLsb'_append_eq_of_le (by decide)).trans BitVec.extractLsb'_append_eq_left
  have h1 : (joinAddr a2 a1 a0).extractLsb' 8 8 = a1 :=
    (BitVec.extractLsb'_append_eq_of_le (by decide)).trans BitVec.extractLsb'_append_eq_right
  have h0 : (joinAddr a2 a1 a0).extractLsb' 0 8 = a0 := BitVec.extractLsb'_append_eq_right
  rw [addrEnc_flashAddress, h2, h1, h0]

/-! ### The body of a bracket -/

/-- What follows the opcode of a bracket: transmitted bytes, received bytes, DESEL (30_encoding.md R81). -/
def bracketBody (t : List Byte) (n : Nat) : List Prim := t.map Prim.tx ++ List.replicate n Prim.rx ++ [Prim.desel]

/-- The bytes a bracket transmits after its opcode: address, dummy bytes, payload (30_encoding.md R83). -/
def sentBytes (i : Wire) (a : FlashAddress) (out : List Byte) : List Byte :=
  (if i.hasAddr then addrEnc a else []) ++ List.replicate i.dummies Config.dummyValue ++ (if i.sends then out else [])

/-- A bracket is SEL, its opcode and a body (30_encoding.md R80). -/
theorem bracketPrims_eq_body (i : Wire) (a : FlashAddress) (out : List Byte) (nin : Nat) :
    bracketPrims i a out nin =
      .sel :: .tx i.opcode :: bracketBody (sentBytes i a out) (if i.receives then nin else 0) := by
  simp only [bracketPrims, bracketBody, sentBytes]
  split <;> split <;> split <;> simp

/-- The body of a bracket is read back. -/
theorem parseBody_bracketBody (t : List Byte) (n : Nat) : parseBody (bracketBody t n) = some (t, n) := by
  induction t with
  | nil =>
    induction n with
    | zero => rfl
    | succ n ih =>
      have hbody : bracketBody [] (n + 1) = .rx :: bracketBody [] n := rfl
      rw [hbody, parseBody, ih]
  | cons b t ih =>
    have hbody : bracketBody (b :: t) n = .tx b :: bracketBody t n := rfl
    rw [hbody, parseBody, ih]

/-- What is read as a body is that body and nothing else. -/
theorem eq_bracketBody_of_parseBody {ps : List Prim} :
    ∀ {t : List Byte} {n : Nat}, parseBody ps = some (t, n) → ps = bracketBody t n := by
  fun_induction parseBody ps with
  | case1 => rintro _ _ ⟨⟩; rfl
  | case2 b ps t n h ih => rintro _ _ ⟨⟩; rw [ih h]; rfl
  | case4 ps n h ih => rintro _ _ ⟨⟩; rw [ih h]; rfl
  | case3 | case5 | case6 => rintro _ _ ⟨⟩

/-- Decoding the encoder's bracket is decoding its opcode with the bytes sent and the number received. -/
theorem decodeBracket_bracketPrims (i : Wire) (a : FlashAddress) (out : List Byte) (nin : Nat) :
    decodeBracket (bracketPrims i a out nin) =
      decodeWire i.opcode (sentBytes i a out) (if i.receives then nin else 0) := by
  rw [bracketPrims_eq_body, decodeBracket, parseBody_bracketBody]

/-- A bracket that decodes is SEL, an opcode and a body the catalogue reads. -/
theorem decodeBracket_eq_ok {ps : List Prim} {i : Instr} (h : decodeBracket ps = .ok i) :
    ∃ opcode t n, ps = .sel :: .tx opcode :: bracketBody t n ∧ decodeWire opcode t n = .ok i := by
  unfold decodeBracket at h
  split at h
  · rename_i opcode ps
    split at h
    · rename_i t n hbody
      exact ⟨opcode, t, n, by rw [eq_bracketBody_of_parseBody hbody], h⟩
    · cases h
  · cases h

/-! ### What each layout reads (30_encoding.md R83) -/

section
variable (opcode : Byte) {t : List Byte} {n : Nat} {j : Instr}

theorem layoutNone_eq_ok {i : Instr} : layoutNone opcode t n i = .ok j ↔ t = [] ∧ n = 0 ∧ i = j := by
  unfold layoutNone
  split <;> simp_all

theorem layoutIn1_eq_ok {i : Instr} : layoutIn1 opcode t n i = .ok j ↔ t = [] ∧ n = 1 ∧ i = j := by
  unfold layoutIn1
  split <;> simp_all

theorem layoutAddr_eq_ok {i : FlashAddress → Instr} :
    layoutAddr opcode t n i = .ok j ↔ ∃ a : FlashAddress, t = addrEnc a ∧ n = 0 ∧ i a = j := by
  constructor
  · intro h
    unfold layoutAddr at h
    split at h
    · rename_i a2 a1 a0
      exact ⟨joinAddr a2 a1 a0, (addrEnc_joinAddr ..).symm, rfl, by injection h⟩
    · cases h
  · rintro ⟨a, rfl, rfl, rfl⟩
    simp [layoutAddr, addrEnc_flashAddress]

theorem layoutAddrIn1_eq_ok {i : FlashAddress → Instr} :
    layoutAddrIn1 opcode t n i = .ok j ↔ ∃ a : FlashAddress, t = addrEnc a ∧ n = 1 ∧ i a = j := by
  constructor
  · intro h
    unfold layoutAddrIn1 at h
    split at h
    · rename_i a2 a1 a0
      exact ⟨joinAddr a2 a1 a0, (addrEnc_joinAddr ..).symm, rfl, by injection h⟩
    · cases h
  · rintro ⟨a, rfl, rfl, rfl⟩
    simp [layoutAddrIn1, addrEnc_flashAddress]

theorem layoutAddrDummyIn_eq_ok {i : FlashAddress → Nat → Instr} :
    layoutAddrDummyIn opcode t n i = .ok j ↔
      ∃ a : FlashAddress, t = addrEnc a ++ [Config.dummyValue] ∧ CountFits n = true ∧ i a n = j := by
  constructor
  · intro h
    unfold layoutAddrDummyIn at h
    split at h
    · rename_i a2 a1 a0 d
      split at h
      · rename_i hd
        exact ⟨joinAddr a2 a1 a0, by rw [addrEnc_joinAddr, hd.1]; rfl, hd.2, by injection h⟩
      · cases h
    · cases h
  · rintro ⟨a, rfl, hn, rfl⟩
    simp [layoutAddrDummyIn, addrEnc_flashAddress, of_decide_eq_true hn]

theorem layoutPage_eq_ok :
    layoutPage opcode t n = .ok j ↔ ∃ (a : FlashAddress) (out : List Byte),
      t = addrEnc a ++ out ∧ n = 0 ∧ out.length ≤ Config.pageClamp ∧ .wirePageProgram a out = j := by
  constructor
  · intro h
    unfold layoutPage at h
    split at h
    · rename_i a2 a1 a0 out
      split at h
      · exact ⟨joinAddr a2 a1 a0, out, by rw [addrEnc_joinAddr]; rfl, rfl, ‹_›, by injection h⟩
      · cases h
    · cases h
  · rintro ⟨a, out, rfl, rfl, hout, rfl⟩
    simp [layoutPage, addrEnc_flashAddress, hout]

theorem layoutOut2_eq_ok :
    layoutOut2 opcode t n = .ok j ↔ ∃ p1 p2 : Byte, t = [p1, p2] ∧ n = 0 ∧ .wireWriteStatusReg p1 p2 = j := by
  constructor
  · intro h
    unfold layoutOut2 at h
    split at h
    · exact ⟨_, _, rfl, rfl, by injection h⟩
    · cases h
  · rintro ⟨p1, p2, rfl, rfl, rfl⟩
    rfl

/-- The two brackets that open with 0xAB are told apart (30_encoding.md R91). -/
theorem layoutAB_eq_ok :
    layoutAB opcode t n = .ok j ↔ (t = [] ∧ n = 0 ∧ .wireReleasePowerDown = j) ∨
      (t = List.replicate 3 Config.dummyValue ∧ n = 1 ∧ .wireDeviceIdProbe = j) := by
  constructor
  · intro h
    unfold layoutAB at h
    split at h
    · exact .inl ⟨rfl, rfl, by injection h⟩
    · split at h
      · rename_i hd
        obtain ⟨rfl, rfl, rfl⟩ := hd
        exact .inr ⟨rfl, rfl, by injection h⟩
      · cases h
    · cases h
  · rintro (⟨rfl, rfl, rfl⟩ | ⟨rfl, rfl, rfl⟩) <;> rfl

end

/-! ### Decoding beside encoding -/

/-- A request of the command set, with counts that fit their input, is read back (30_encoding.md R92, R93). -/
theorem decodeRequest_encodeRequest {r : Request} (h : (Instr.ofRequest r).WellFormed) :
    decodeRequest (encodeRequest r) = .ok r := by
  cases r with
  | fastReadData a n | readSecurityRegister a n =>
    have hn : (BitVec.ofNat Config.lenBits n).toNat = n := Nat.mod_eq_of_lt (of_decide_eq_true h)
    simp [decodeRequest, encodeRequest, blankRequest, hn]
  | _ => rfl

/-- An operation is encoded as its request. -/
theorem encode_ofRequest (r : Request) : encode (Instr.ofRequest r) = .request (encodeRequest r) := by
  cases r <;> rfl

/-- An operation is decoded from its request. -/
theorem decode_encode_ofRequest (r : Request) (h : (Instr.ofRequest r).WellFormed) :
    decode (encode (Instr.ofRequest r)) = .ok (Instr.ofRequest r) := by
  rw [encode_ofRequest, decode, decodeRequest_encodeRequest h]

/-- A catalogue instruction is decoded from its bracket where its row reads the bytes sent and the number received. -/
theorem decode_bracketPrims {i : Instr} {w : Wire} {a : FlashAddress} {out : List Byte} {nin : Nat}
    (h : decodeWire w.opcode (sentBytes w a out) (if w.receives then nin else 0) = .ok i) :
    decode (.bracket (bracketPrims w a out nin)) = .ok i :=
  (decodeBracket_bracketPrims ..).trans h

/-- Settles O25: an operation is read from its selector and operands, a catalogue instruction from its opcode and the
layout of its row. -/
theorem decodeOfEncodeIsTheInstruction : Obligations.DecodeOfEncodeIsTheInstruction := by
  intro i h
  cases i with
  | readStatusRegisters => exact decode_encode_ofRequest .readStatusRegisters h
  | writeStatusRegisters sr1 sr2 => exact decode_encode_ofRequest (.writeStatusRegisters sr1 sr2) h
  | readData addr => exact decode_encode_ofRequest (.readData addr) h
  | fastReadData addr n => exact decode_encode_ofRequest (.fastReadData addr n) h
  | pageProgram addr data => exact decode_encode_ofRequest (.pageProgram addr data) h
  | readSecurityRegister addr n => exact decode_encode_ofRequest (.readSecurityRegister addr n) h
  | sectorErase4KB addr => exact decode_encode_ofRequest (.sectorErase4KB addr) h
  | blockErase32KB addr => exact decode_encode_ofRequest (.blockErase32KB addr) h
  | blockErase64KB addr => exact decode_encode_ofRequest (.blockErase64KB addr) h
  | chipErase => exact decode_encode_ofRequest .chipErase h
  | suspend => exact decode_encode_ofRequest .suspend h
  | resume => exact decode_encode_ofRequest .resume h
  | powerDown => exact decode_encode_ofRequest .powerDown h
  | releasePowerDown => exact decode_encode_ofRequest .releasePowerDown h
  | deviceID => exact decode_encode_ofRequest .deviceID h
  | wireWriteEnable | wireVolatileSRWriteEnable | wireWriteDisable | wireReadStatusReg1 | wireReadStatusReg2
  | wireChipErase | wireEraseProgramSuspend | wireEraseProgramResume | wirePowerDown | wireReleasePowerDown
  | wireDeviceIdProbe =>
    rfl -- a row without operands has a single bracket
  | wireWriteStatusReg p1 p2 =>
    exact decode_bracketPrims ((layoutOut2_eq_ok 0x01#8).2 ⟨p1, p2, rfl, rfl, rfl⟩)
  | wirePageProgram addr out =>
    exact decode_bracketPrims ((layoutPage_eq_ok 0x02#8).2 ⟨addr, out, rfl, rfl, of_decide_eq_true h, rfl⟩)
  | wireSectorErase4KB addr => exact decode_bracketPrims ((layoutAddr_eq_ok 0x20#8).2 ⟨addr, rfl, rfl, rfl⟩)
  | wireBlockErase32KB addr => exact decode_bracketPrims ((layoutAddr_eq_ok 0x52#8).2 ⟨addr, rfl, rfl, rfl⟩)
  | wireBlockErase64KB addr => exact decode_bracketPrims ((layoutAddr_eq_ok 0xD8#8).2 ⟨addr, rfl, rfl, rfl⟩)
  | wireReadData addr => exact decode_bracketPrims ((layoutAddrIn1_eq_ok 0x03#8).2 ⟨addr, rfl, rfl, rfl⟩)
  | wireFastRead addr n => exact decode_bracketPrims ((layoutAddrDummyIn_eq_ok 0x0B#8).2 ⟨addr, rfl, h, rfl⟩)
  | wireReadSecurityRegister addr n =>
    exact decode_bracketPrims ((layoutAddrDummyIn_eq_ok 0x48#8).2 ⟨addr, rfl, h, rfl⟩)

/-- Only the catalogue's opcodes are read (30_encoding.md R90). -/
theorem opcode_of_decodeWire_eq_ok {opcode : Byte} {t : List Byte} {n : Nat} {i : Instr}
    (h : decodeWire opcode t n = .ok i) : ∃ w : Wire, opcode = w.opcode := by
  unfold decodeWire at h
  split at h
  · exact ⟨.writeEnable, BitVec.eq_of_toNat_eq ‹_›⟩
  · exact ⟨.volatileSRWriteEnable, BitVec.eq_of_toNat_eq ‹_›⟩
  · exact ⟨.writeDisable, BitVec.eq_of_toNat_eq ‹_›⟩
  · exact ⟨.readStatusReg1, BitVec.eq_of_toNat_eq ‹_›⟩
  · exact ⟨.readStatusReg2, BitVec.eq_of_toNat_eq ‹_›⟩
  · exact ⟨.writeStatusReg, BitVec.eq_of_toNat_eq ‹_›⟩
  · exact ⟨.pageProgram, BitVec.eq_of_toNat_eq ‹_›⟩
  · exact ⟨.sectorErase4KB, BitVec.eq_of_toNat_eq ‹_›⟩
  · exact ⟨.blockErase32KB, BitVec.eq_of_toNat_eq ‹_›⟩
  · exact ⟨.blockErase64KB, BitVec.eq_of_toNat_eq ‹_›⟩
  · exact ⟨.chipErase, BitVec.eq_of_toNat_eq ‹_›⟩
  · exact ⟨.eraseProgramSuspend, BitVec.eq_of_toNat_eq ‹_›⟩
  · exact ⟨.eraseProgramResume, BitVec.eq_of_toNat_eq ‹_›⟩
  · exact ⟨.powerDown, BitVec.eq_of_toNat_eq ‹_›⟩
  · exact ⟨.readData, BitVec.eq_of_toNat_eq ‹_›⟩
  · exact ⟨.fastRead, BitVec.eq_of_toNat_eq ‹_›⟩
  · exact ⟨.releasePowerDown, BitVec.eq_of_toNat_eq ‹_›⟩
  · exact ⟨.readSecurityRegister, BitVec.eq_of_toNat_eq ‹_›⟩
  · cases h

/-- What the layout of a catalogue row reads is the encoder's bracket of a well-formed instruction. -/
theorem encode_of_decodeWire_opcode {w : Wire} {t : List Byte} {n : Nat} {i : Instr}
    (h : decodeWire w.opcode t n = .ok i) :
    i.WellFormed ∧ encode i = .bracket (.sel :: .tx w.opcode :: bracketBody t n) := by
  cases w with
  | writeEnable | volatileSRWriteEnable | writeDisable | chipErase | eraseProgramSuspend | eraseProgramResume
  | powerDown =>
    obtain ⟨rfl, rfl, rfl⟩ := (layoutNone_eq_ok _).1 h
    exact ⟨rfl, rfl⟩
  | readStatusReg1 | readStatusReg2 =>
    obtain ⟨rfl, rfl, rfl⟩ := (layoutIn1_eq_ok _).1 h
    exact ⟨rfl, rfl⟩
  | writeStatusReg =>
    obtain ⟨p1, p2, rfl, rfl, rfl⟩ := (layoutOut2_eq_ok _).1 h
    exact ⟨rfl, rfl⟩
  | pageProgram =>
    obtain ⟨a, out, rfl, rfl, hout, rfl⟩ := (layoutPage_eq_ok _).1 h
    exact ⟨decide_eq_true hout, congrArg Frame.bracket (bracketPrims_eq_body ..)⟩
  | sectorErase4KB | blockErase32KB | blockErase64KB =>
    obtain ⟨a, rfl, rfl, rfl⟩ := (layoutAddr_eq_ok _).1 h
    exact ⟨rfl, rfl⟩
  | readData =>
    obtain ⟨a, rfl, rfl, rfl⟩ := (layoutAddrIn1_eq_ok _).1 h
    exact ⟨rfl, rfl⟩
  | fastRead | readSecurityRegister =>
    obtain ⟨a, rfl, hn, rfl⟩ := (layoutAddrDummyIn_eq_ok _).1 h
    exact ⟨hn, congrArg Frame.bracket (bracketPrims_eq_body ..)⟩
  | releasePowerDown | deviceIdProbe =>
    obtain ⟨rfl, rfl, rfl⟩ | ⟨rfl, rfl, rfl⟩ := (layoutAB_eq_ok _).1 h <;> exact ⟨rfl, rfl⟩

/-- Settles O26: the opcode is one of the catalogue's, and the layout of its row fixes the body. -/
theorem decodedBracketIsTheEncodersBracket : Obligations.DecodedBracketIsTheEncodersBracket := by
  intro ps i h
  obtain ⟨opcode, t, n, rfl, hwire⟩ := decodeBracket_eq_ok h
  obtain ⟨w, rfl⟩ := opcode_of_decodeWire_eq_ok hwire
  exact encode_of_decodeWire_opcode hwire

/-! ### The openers of brackets and micro-programs (30_encoding.md R96) -/

/-- Only the head of a list says whether it begins with a transmitted byte. -/
theorem firstTx_append {ps : List Prim} (h : ps ≠ []) (qs : List Prim) : firstTx (ps ++ qs) = firstTx ps := by
  cases ps with
  | nil => exact absurd rfl h
  | cons p ps => cases p <;> rfl

/-- A list read from where whole brackets end has its openers to itself. -/
theorem openers_append_of_balanced {ps qs : List Prim} :
    ∀ {l : ChipSelect}, busLevel l ps = some .deasserted → openers (ps ++ qs) = openers ps ++ openers qs := by
  induction ps with
  | nil => intro l _; rfl
  | cons p ps ih =>
    intro l h
    obtain ⟨m, -, hm⟩ := Option.bind_eq_some_iff.1 ((busLevel_append [p] ps l).symm.trans h)
    have hrest : openers (ps ++ qs) = openers ps ++ openers qs := ih hm
    cases p with
    | sel =>
      have hne : ps ≠ [] := by
        rintro rfl
        cases l <;> cases h
      simp [openers, hrest, firstTx_append hne]
    | desel | tx | rx => exact hrest

/-- A DESEL at the end adds no opener. -/
theorem openers_append_desel (ps : List Prim) : openers (ps ++ [Prim.desel]) = openers ps := by
  induction ps with
  | nil => rfl
  | cons p ps ih =>
    cases p with
    | sel =>
      obtain rfl | hne := eq_or_ne ps []
      · rfl
      · simp [openers, ih, firstTx_append hne]
    | desel | tx | rx => exact ih

/-- The openers of a first part are openers of the whole. -/
theorem openers_subset_append (ps qs : List Prim) : openers ps ⊆ openers (ps ++ qs) := by
  induction ps with
  | nil => exact List.nil_subset _
  | cons p ps ih =>
    cases p with
    | sel =>
      obtain rfl | hne := eq_or_ne ps []
      · exact List.nil_subset _
      · simpa [openers, firstTx_append hne] using List.subset_append_of_subset_right _ ih
    | desel | tx | rx => exact ih

/-- The openers of a first part of a micro-program are openers of the micro-program. -/
theorem openers_take_subset (k : Nat) (ps : List Prim) : openers (ps.take k) ⊆ openers ps := by
  have h := openers_subset_append (ps.take k) (ps.drop k)
  rwa [List.take_append_drop] at h

/-- Where no bracket is opened there is no opener. -/
theorem openers_eq_nil {ps : List Prim} (h : .sel ∉ ps) : openers ps = [] := by
  induction ps with
  | nil => rfl
  | cons p ps ih =>
    obtain ⟨hp, hps⟩ := List.ne_and_not_mem_of_not_mem_cons h
    cases p with
    | sel => exact absurd rfl hp
    | desel | tx | rx => exact ih hps

/-- A bracket's one opener is its opcode (30_encoding.md R81). -/
theorem openers_bracketPrims {w : Nat} (i : Wire) (a : BitVec w) (out : List Byte) (nin : Nat) :
    openers (bracketPrims i a out nin) = [i.opcode] := by
  have htail : ∀ ps : List Prim, openers (.sel :: .tx i.opcode :: ps) = i.opcode :: openers ps := fun _ => rfl
  simp only [bracketPrims, List.cons_append, List.nil_append, htail]
  rw [openers_eq_nil]
  split <;> split <;> split <;> simp

/-- The openers of a write-class micro-program: 0x06 and the opcode of its second bracket (41_sequencer.md R136). -/
theorem openers_wren_append {w : Nat} (i : Wire) (a : BitVec w) (out : List Byte) (nin : Nat) :
    openers (wren ++ bracketPrims i a out nin) = [0x06#8, i.opcode] := by
  have hwren : busLevel .deasserted wren = some .deasserted := busLevel_bracketPrims ..
  rw [openers_append_of_balanced hwren, openers_bracketPrims]
  rfl

/-- The opcode of a row the block can issue is one of the 16. -/
theorem opcode_mem_emittable {i : Wire} (h : i.issuable = true) : i.opcode ∈ emittable := by
  cases i with
  | volatileSRWriteEnable | writeDisable => cases h
  | _ => decide

/-- The bracket of a row the block can issue opens with one of the 16. -/
theorem openers_bracketPrims_subset {w : Nat} {i : Wire} {a : BitVec w} {out : List Byte} {nin : Nat}
    (h : i.issuable = true) : openers (bracketPrims i a out nin) ⊆ emittable := by
  simp [openers_bracketPrims, opcode_mem_emittable h]

/-- So do the write-enable bracket and the one after it. -/
theorem openers_wren_append_subset {w : Nat} {i : Wire} {a : BitVec w} {out : List Byte} {nin : Nat}
    (h : i.issuable = true) : openers (wren ++ bracketPrims i a out nin) ⊆ emittable := by
  have hwren : 0x06#8 ∈ emittable := by decide
  simp [openers_wren_append, opcode_mem_emittable h, hwren]

/-- An operation opens its brackets with the 16 bytes only. -/
theorem openers_expand_subset (r : Request) : openers r.expand ⊆ emittable := by
  cases r with
  | readStatusRegisters => decide
  | writeStatusRegisters | pageProgram | sectorErase4KB | blockErase32KB | blockErase64KB | chipErase =>
    exact openers_wren_append_subset rfl
  | readData | fastReadData | readSecurityRegister | suspend | resume | powerDown | releasePowerDown | deviceID =>
    exact openers_bracketPrims_subset rfl

/-- A job the block can issue opens its brackets with the 16 bytes only. -/
theorem openers_program_subset {job : Job} (h : job.issuable = true) : openers job.program ⊆ emittable := by
  cases job with
  | operation r => exact openers_expand_subset r
  | bracket c => exact openers_bracketPrims_subset h

/-- A request of every operation, the operands zero. -/
def sampleRequests : List Request :=
  [.readStatusRegisters, .writeStatusRegisters Flags8.clear Flags8.clear, .readData 0, .fastReadData 0 0,
    .pageProgram 0 [], .readSecurityRegister 0 0, .sectorErase4KB 0, .blockErase32KB 0, .blockErase64KB 0,
    .chipErase, .suspend, .resume, .powerDown, .releasePowerDown, .deviceID]

/-- Each of the 16 bytes opens a bracket of a sample request. -/
theorem emittable_subset_openers_sample :
    emittable ⊆ sampleRequests.flatMap fun r => openers r.expand := by
  decide

/-- Settles O31: the micro-programs open with the 16 bytes only, and the sample requests with all of them. -/
theorem openingBytesAreTheSixteen : Obligations.OpeningBytesAreTheSixteen := by
  intro b
  constructor
  · rintro ⟨r, hb⟩
    exact openers_expand_subset r hb
  · intro hb
    obtain ⟨r, -, hr⟩ := List.mem_flatMap.1 (emittable_subset_openers_sample hb)
    exact ⟨r, hr⟩

/-- Performing the next primitive keeps the openers among the 16: before the operation there are whole brackets, and the
events of the operation are a first part of its micro-program. -/
theorem OpenersEmittable.perform {s : State} (h : OpenersEmittable s) (hinv : SequencerInv s) {job : Job}
    {prog : List Prim} {pos : Nat} {rx : List Byte} {p : Prim} (hs : s.seq = .run job prog pos rx)
    (hp : prog[pos]? = some p) : OpenersEmittable (s.perform job prog pos rx p) := by
  obtain ⟨-, hjob, rfl, -, -, past, now, htrace, hpast, hnow, -⟩ := (sequencerInv_run_iff hs).1 hinv
  have hskeleton : skeleton (s.perform job job.program pos rx p).trace =
      skeleton past ++ job.program.take (pos + 1) := by
    simp [htrace, hnow, List.take_add_one, hp]
  intro b hb
  rw [hskeleton, openers_append_of_balanced hpast, List.mem_append] at hb
  obtain hb | hb := hb
  · refine h b ?_
    rw [htrace, skeleton_append]
    exact openers_subset_append _ _ hb
  · exact openers_program_subset hjob (openers_take_subset _ _ hb)

/-- Reset keeps the openers: it records at most a DESEL. -/
theorem OpenersEmittable.applyReset {s : State} (h : OpenersEmittable s) : OpenersEmittable s.applyReset := by
  unfold OpenersEmittable
  rw [State.applyReset_trace]
  cases s.sel with
  | asserted => rwa [skeleton_append, show skeleton [.desel] = [Prim.desel] from rfl, openers_append_desel]
  | deasserted => exact h

/-- The openers are a property of the trace alone. -/
theorem OpenersEmittable.of_trace_eq {s t : State} (h : OpenersEmittable s) (htrace : t.trace = s.trace) :
    OpenersEmittable t := by
  unfold OpenersEmittable
  rwa [htrace]

/-- Settles O48: only performing a primitive and reset record an event. -/
theorem stepKeepsOpenersEmittable : Obligations.StepKeepsOpenersEmittable := by
  intro s t hinv h hstep
  obtain ⟨-, rfl⟩ | ⟨-, ⟨job, prog, pos, rx, hs, -, hrun⟩ | ⟨-, hidle⟩⟩ := step_cases hstep
  · exact h.applyReset
  · obtain ⟨-, rfl⟩ | ⟨p, hp, -, rfl⟩ := hrun
    · exact h.of_trace_eq (State.complete_trace ..)
    · exact h.perform hinv hs hp
  · obtain ⟨-, rfl⟩ | ⟨i, u, hf, he⟩ := hidle
    · exact h
    · exact h.of_trace_eq ((exec_keeps_histories he).1.trans (State.fetched_keeps_histories hf).1)

/-! ### An operation and its catalogue instructions -/

/-- An address is truncated once: the bracket of an operation is that of its 24-bit address (40_codecs.md R110). -/
theorem bracketPrims_trunc24 (i : Wire) (a : AddrIn) (out : List Byte) (nin : Nat) :
    bracketPrims i (trunc24 a) out nin = bracketPrims i a out nin := by
  simp [bracketPrims, addrEnc, trunc24]

/-- Settles O33: the brackets are the same but for the address, which an operation hands over untruncated. -/
theorem operationIsItsCatalogueInstructions : Obligations.OperationIsItsCatalogueInstructions := by
  intro r
  have hlast (i : Wire) (a : AddrIn) (out : List Byte) (nin : Nat) :
      bracketPrims i a out nin = bracketPrims i (trunc24 a) out nin ++ [] := by
    rw [List.append_nil, bracketPrims_trunc24]
  cases r with
  | readData | fastReadData | readSecurityRegister => exact hlast ..
  | pageProgram | sectorErase4KB | blockErase32KB | blockErase64KB => exact congrArg (wren ++ ·) (hlast ..)
  | readStatusRegisters | writeStatusRegisters | chipErase | suspend | resume | powerDown | releasePowerDown | deviceID =>
    rfl

/-! ### Catalogue instructions run to their end (30_encoding.md R90; 41_sequencer.md R130) -/

/-- Every micro-program ends with DESEL. -/
theorem exists_program_eq_append_desel (job : Job) : ∃ ps, job.program = ps ++ [Prim.desel] := by
  cases job with
  | operation r =>
    cases r with
    | readStatusRegisters | writeStatusRegisters | pageProgram | sectorErase4KB | blockErase32KB | blockErase64KB
    | chipErase =>
      exact ⟨_, (List.append_assoc ..).symm⟩
    | readData | fastReadData | readSecurityRegister | suspend | resume | powerDown | releasePowerDown | deviceID =>
      exact ⟨_, rfl⟩
  | bracket c => exact ⟨_, rfl⟩

/-- A job that an instruction starts runs to its end from `Idle`, under the three premises. -/
theorem runsToTheEnd_of_accept {i : Instr} {job : Job} {result : List Byte → Result} {s : State}
    (hexec : exec i s = s.accept job job.program) (hs : s.seq = .idle) (hr : Ready job.program.length s)
    (hres : ∀ bs, bs.length = job.program.count .rx → resultOf job bs = result bs) :
    RunsToTheEnd i job job.program result s := by
  obtain ⟨bs, hlen, hans, hrun⟩ :=
    run_rest job job.program job.program [] [] (s.start job job.program) rfl rfl hr
  obtain ⟨ps, hps⟩ := exists_program_eq_append_desel job
  obtain ⟨hbus, -, hrst⟩ := hr
  have hsel : lastLevel s.sel job.program = .deasserted := by rw [hps, lastLevel_append_desel]
  refine ⟨hexec.trans (State.accept_idle hs ..), bs, hlen, hans, (run_add hrun 1).trans ?_⟩
  refine (run_succ (step_complete (by exact hrst) (by exact hbus) rfl le_rfl) 0).trans ?_
  simp [Host.Core.run, State.complete, hsel, hres bs hlen]

/-- A catalogue instruction that invokes a bracket runs it to its end and delivers the bytes received. -/
theorem runsToTheEnd_of_invoke {i : Instr} {c : Call} {prog : List Prim} {k : Nat} {s : State}
    (hexec : exec i s = s.invoke c) (hprog : progCall c = prog) (hlen : prog.length = k) (hs : s.seq = .idle)
    (hr : Ready k s) : RunsToTheEnd i (.bracket c) prog .bytes s := by
  subst hprog hlen
  exact runsToTheEnd_of_accept (job := .bracket c) hexec hs hr fun _ _ => rfl

/-- Where the bracket receives nothing it delivers no bytes. -/
theorem runsToTheEnd_of_invoke_sending {i : Instr} {c : Call} {prog : List Prim} {k : Nat} {s : State}
    (hexec : exec i s = s.invoke c) (hprog : progCall c = prog) (hlen : prog.length = k)
    (hrx : c.wire.receives = false) (hs : s.seq = .idle) (hr : Ready k s) :
    RunsToTheEnd i (.bracket c) prog (fun _ => .bytes []) s := by
  subst hprog hlen
  have hcount : (progCall c).count .rx = 0 := by
    rw [progCall, count_rx_bracketPrims, hrx]
    rfl
  refine runsToTheEnd_of_accept (job := .bracket c) hexec hs hr fun bs hlen => ?_
  rw [List.length_eq_zero_iff.1 (hlen.trans hcount)]
  rfl

/-- Settles O12: each of the six invokes the bracket of its row, which receives nothing. -/
theorem bareWireInstructionsRunTheirBracket : Obligations.BareWireInstructionsRunTheirBracket := by
  intro s hs hr
  refine ⟨?_, ?_, ?_, ?_, ?_, ?_⟩ <;> exact runsToTheEnd_of_invoke_sending rfl rfl rfl rfl hs hr

/-- A bracket with an address: opcode, address, dummy bytes, payload (30_encoding.md R82, R83). -/
theorem progCall_of_hasAddr {w : Wire} (h : w.hasAddr = true) (a : FlashAddress) (out : List Byte) (nin : Nat) :
    progCall ⟨w, a, out, nin⟩ =
      [Prim.sel, .tx w.opcode, .tx (a.extractLsb' 16 8), .tx (a.extractLsb' 8 8), .tx (a.extractLsb' 0 8)]
        ++ List.replicate w.dummies (Prim.tx Config.dummyValue) ++ (if w.sends then out.map Prim.tx else [])
        ++ (if w.receives then List.replicate nin Prim.rx else []) ++ [Prim.desel] := by
  simp [progCall, bracketPrims, h, addrEnc_flashAddress]

/-- Settles O13: each of the three invokes the bracket of its row, which has an address and receives nothing. -/
theorem addressedWireErasesRunTheirBracket : Obligations.AddressedWireErasesRunTheirBracket := by
  intro addr s hs hr
  refine ⟨?_, ?_, ?_⟩ <;> exact runsToTheEnd_of_invoke_sending rfl (progCall_of_hasAddr rfl ..) rfl rfl hs hr

/-- Settles O14: each of the six invokes the bracket of its row and delivers what the bracket receives. -/
theorem wireReadsRunTheirBracket : Obligations.WireReadsRunTheirBracket := by
  intro addr n s hs
  refine ⟨fun hr => ?_, fun hr => ?_, fun hr => ?_, fun hr => ?_, fun hr => ?_, fun hr => ?_⟩
  · exact runsToTheEnd_of_invoke rfl rfl rfl hs hr
  · exact runsToTheEnd_of_invoke rfl rfl rfl hs hr
  · exact runsToTheEnd_of_invoke rfl (progCall_of_hasAddr rfl ..) rfl hs hr
  · exact runsToTheEnd_of_invoke rfl (progCall_of_hasAddr rfl ..) (by simp; omega) hs hr
  · exact runsToTheEnd_of_invoke rfl (progCall_of_hasAddr rfl ..) (by simp; omega) hs hr
  · exact runsToTheEnd_of_invoke rfl rfl rfl hs hr

/-- The payload of a PageProgram is its leading 256 bytes (30_encoding.md R87; 40_codecs.md R120). -/
theorem pagePayload_eq_take (data : List Byte) : pagePayload data = data.take 256 := by
  simp [pagePayload, clamp256, List.take_eq_take_iff, Nat.min_comm]

/-- The PageProgram bracket: opcode, address, payload (30_encoding.md R83). -/
theorem progCall_pageProgram (a : FlashAddress) (out : List Byte) :
    progCall ⟨.pageProgram, a, out, 0⟩ = [Prim.sel, .tx 0x02#8, .tx (a.extractLsb' 16 8), .tx (a.extractLsb' 8 8),
      .tx (a.extractLsb' 0 8)] ++ out.map Prim.tx ++ [Prim.desel] :=
  (progCall_of_hasAddr rfl ..).trans (congrArg (· ++ [Prim.desel]) (List.append_nil _))

/-- Settles O15: both invoke the bracket of their row, the payload of a PageProgram cut to a page. -/
theorem wireWritesRunTheirBracket : Obligations.WireWritesRunTheirBracket := by
  intro p1 p2 addr out s hs
  refine ⟨fun hr => ?_, fun hr => ?_⟩
  · exact runsToTheEnd_of_invoke_sending rfl rfl rfl rfl hs hr
  · have hexec : exec (.wirePageProgram addr out) s = s.invoke ⟨.pageProgram, addr, pagePayload out, 0⟩ := rfl
    rw [pagePayload_eq_take] at hexec
    exact runsToTheEnd_of_invoke_sending hexec (progCall_pageProgram ..) (by simp; omega) rfl hs hr

/-! ### Refusals -/

/-- Settles O16: the two rows answer the refusal of their opcode without reading the state. -/
theorem rowsWithoutShapeAreRefused : Obligations.RowsWithoutShapeAreRefused :=
  fun _ => ⟨rfl, rfl⟩

/-- Settles O27, each word by running the decoder on it. -/
theorem writtenOutWordsDecode : Obligations.WrittenOutWordsDecode :=
  ⟨rfl, rfl, rfl, rfl, rfl, rfl, rfl, rfl, rfl⟩

/-- Selector 15 names no operation (30_encoding.md R93). -/
theorem decode_selector_fifteen {p : PortRequest} (h : p.selector = 15#4) :
    decode (.request p) = .error (.noOperation 15#4) := by
  simp [decode, decodeRequest, h]

/-- A request that names no operation is not taken. -/
theorem State.fetched_eq_none_of_error {s : State} {p : PortRequest} {ps : List PortRequest} {e : DecodeError}
    (hcall : s.call = none) (hport : s.port = p :: ps) (h : decode (.request p) = .error e) : s.fetched = none := by
  simp only [State.fetched, hcall, hport, h]

/-- Settles O37: with nothing taken the step waits. -/
theorem selectorFifteenIsNotAccepted : Obligations.SelectorFifteenIsNotAccepted := by
  intro s p ps hs hrst hcall hport hsel
  exact step_wait hrst hs (State.fetched_eq_none_of_error hcall hport (decode_selector_fifteen hsel))

end Sys2Proof.Machine
end

section
/-! SUPPORT. The codecs (40_codecs.md): the address bytes and the number they stand for, the bits of a status byte
beside its flags, and the leading page. -/

namespace Sys2Proof.Machine

/-! ### Addresses -/

/-- Settles O17: truncation is the operand modulo `2^24`, which leaves what is below `2^24`. -/
theorem addressIsTruncatedTo24Bits : Obligations.AddressIsTruncatedTo24Bits := by
  intro w a
  have hmod : (trunc24 a).toNat = a.toNat % 2 ^ 24 := BitVec.toNat_setWidth ..
  exact ⟨hmod, fun hle => hmod.trans (Nat.mod_eq_of_lt (by omega))⟩

/-- Settles O18: the byte that starts at bit `k` of the truncated address has as bit `i` the bit `k + i`. -/
theorem addressBytesAreMostSignificantFirst : Obligations.AddressBytesAreMostSignificantFirst := by
  intro w a
  have hbit (k i : Nat) (hi : i < 8) : ((trunc24 a).extractLsb' k 8).getLsbD i = (trunc24 a).getLsbD (k + i) := by
    simp [hi]
  refine ⟨_, _, _, rfl, fun i hi => ⟨hbit 16 i hi, hbit 8 i hi, ?_⟩⟩
  rw [hbit 0 i hi, Nat.zero_add]

/-- An address is truncated once: the encoding reads its low 24 bits only (40_codecs.md R110, R111). -/
theorem addrEnc_trunc24 {w : Nat} (a : BitVec w) : addrEnc (trunc24 a) = addrEnc a :=
  addrEnc_flashAddress _

/-- Three bytes stand for the number of the address they join to (40_codecs.md R112). -/
theorem decodeBytes_eq_joinAddr (a2 a1 a0 : Byte) : decodeBytes [a2, a1, a0] = some (joinAddr a2 a1 a0).toNat := by
  have happend {m : Nat} (x : BitVec m) (y : Byte) : (x ++ y).toNat = x.toNat * 2 ^ 8 + y.toNat := by
    rw [BitVec.toNat_append, ← Nat.shiftLeft_add_eq_or_of_lt y.isLt, Nat.shiftLeft_eq]
  have hjoin : (joinAddr a2 a1 a0).toNat = (a2.toNat * 2 ^ 8 + a1.toNat) * 2 ^ 8 + a0.toNat := by
    rw [joinAddr, happend, happend]
  rw [hjoin, decodeBytes, Option.some.injEq]
  omega

/-- The round trip of an address operand: its encoding decodes to its truncation (40_codecs.md R112). -/
theorem decodeBytes_addrEnc {w : Nat} (a : BitVec w) : decodeBytes (addrEnc a) = some (trunc24 a).toNat :=
  (decodeBytes_eq_joinAddr ..).trans (by rw [joinAddr_extract])

/-- Operands are encoded alike exactly where they agree after truncation (40_codecs.md R110, R111). -/
theorem addrEnc_eq_addrEnc_iff {w : Nat} {a b : BitVec w} : addrEnc a = addrEnc b ↔ trunc24 a = trunc24 b := by
  constructor
  · intro h
    have hnum : some (trunc24 a).toNat = some (trunc24 b).toNat := by
      rw [← decodeBytes_addrEnc, ← decodeBytes_addrEnc, h]
    exact BitVec.eq_of_toNat_eq (Option.some.inj hnum)
  · intro h
    rw [← addrEnc_trunc24 a, ← addrEnc_trunc24 b, h]

/-- Settles O19: the round trip, when encodings agree, and that a 24-bit address is its own truncation. -/
theorem addressEncodingRoundTrips : Obligations.AddressEncodingRoundTrips := by
  refine ⟨fun _ => decodeBytes_addrEnc, fun _ _ _ => addrEnc_eq_addrEnc_iff, fun a b h => ?_⟩
  have htrunc (c : FlashAddress) : trunc24 c = c := BitVec.setWidth_eq c
  rw [← htrunc a, ← htrunc b, addrEnc_eq_addrEnc_iff.1 h]

/-! ### Status bytes -/

/-- Flags are determined by what they are at the eight indices. -/
theorem flags8_eq_of_get_eq {f g : Flags8} (h : ∀ i : Fin 8, f.get i = g.get i) : f = g := by
  cases f
  cases g
  rw [Flags8.mk.injEq]
  exact ⟨h 0, h 1, h 2, h 3, h 4, h 5, h 6, h 7⟩

/-- The mask of index `i` has bit `i` alone (40_codecs.md R115). -/
theorem flagMask_getLsbD (i j : Fin 8) : (flagMask i).getLsbD j = decide (i = j) := by
  rw [flagMask, ← BitVec.twoPow_eq, BitVec.getLsbD_twoPow]
  simp [Fin.ext_iff]

/-- What index `i` contributes to a status byte is flag `i`, at bit `i` alone. -/
theorem flagBit_getLsbD (f : Flags8) (i j : Fin 8) : (flagBit f i).getLsbD j = (decide (i = j) && f.get i) := by
  rw [flagBit]
  cases f.get i with
  | true => exact (flagMask_getLsbD i j).trans (Bool.and_true _).symm
  | false => exact BitVec.getLsbD_zero.trans (Bool.and_false _).symm

/-- Bit `i` of an encoded byte is flag `i` (40_codecs.md R115). -/
theorem srEnc_getLsbD (f : Flags8) (i : Fin 8) : (srEnc f).getLsbD i = f.get i := by
  simp only [srEnc, BitVec.getLsbD_or, flagBit_getLsbD]
  fin_cases i <;> simp

/-- A number modulo `2^n` is the sum of the weights of its low `n` bits. -/
theorem mod_two_pow_eq_sum_testBit (x n : Nat) :
    x % 2 ^ n = ((List.finRange n).map fun i : Fin n => if x.testBit i then 2 ^ i.val else 0).sum := by
  induction n with
  | zero => simp [Nat.mod_one]
  | succ n ih =>
    have htop : 2 ^ n * (x / 2 ^ n % 2) = if x.testBit n then 2 ^ n else 0 := by
      rw [← Nat.toNat_testBit]
      cases x.testBit n <;> simp
    rw [Nat.mod_pow_succ, htop, ih, List.finRange_succ_last]
    simp [Function.comp_def]

/-- A byte is the sum of the weights of its bits. -/
theorem toNat_eq_sum_getLsbD (b : Byte) :
    b.toNat = ((List.finRange 8).map fun i : Fin 8 => if b.getLsbD i then 2 ^ i.val else 0).sum :=
  (Nat.mod_eq_of_lt b.isLt).symm.trans (mod_two_pow_eq_sum_testBit ..)

/-- Settles O21: the bits of the byte are the flags, and a byte is the sum of its bits. -/
theorem encodedBitIsItsFlag : Obligations.EncodedBitIsItsFlag := by
  refine fun f => ⟨srEnc_getLsbD f, ?_⟩
  simp only [toNat_eq_sum_getLsbD, srEnc_getLsbD]

/-- Settles O20, the flag of an index being that bit of the byte. -/
theorem decodedFlagIsItsBit : Obligations.DecodedFlagIsItsBit := srDec_get

/-- Settles O22: both compositions keep each bit and each flag. -/
theorem statusCodecIsABijection : Obligations.StatusCodecIsABijection := by
  refine ⟨fun b => BitVec.eq_of_getLsbD_eq fun i hi => ?_, fun f => flags8_eq_of_get_eq fun i => ?_⟩
  · exact (srEnc_getLsbD (srDec b) ⟨i, hi⟩).trans (srDec_get ..)
  · rw [srDec_get, srEnc_getLsbD]

/-! ### The page payload -/

/-- Settles O24: the payload is the first 256 bytes of the data, or all of a shorter one. -/
theorem pagePayloadIsTheLeadingPage : Obligations.PagePayloadIsTheLeadingPage := by
  refine ⟨fun _ => rfl, fun data => ?_⟩
  rw [pagePayload_eq_take]
  exact ⟨by rw [List.length_take, Nat.min_comm], fun i hi => List.getElem?_take_of_lt (by omega)⟩

end Sys2Proof.Machine
end

section
/-! SUPPORT. The sequencer family (41_sequencer.md): the parts of brackets, micro-programs and bursts, what each kind of
step does at acceptance, with a primitive and at completion. -/

namespace Sys2Proof.Machine

/-! ### Brackets and micro-programs (R131 to R137) -/

/-- Settles O28: a bracket is SEL, the opcode, DESEL and the fields its row has. -/
theorem bracketLengthCountsItsFields : Obligations.BracketLengthCountsItsFields := by
  intro w i a out nin
  have haddr : (addrEnc a).length = 3 := rfl
  simp only [bracketPrims, List.length_append, apply_ite List.length, List.length_map, List.length_replicate, haddr,
    List.length_cons, List.length_nil]
  omega

/-- The payload of a PageProgram is at most a page (40_codecs.md R120). -/
theorem length_pagePayload (data : List Byte) : (pagePayload data).length = min data.length 256 :=
  (pagePayloadIsTheLeadingPage.2 data).1

/-- A PageProgram has its two brackets and the payload (R137). -/
theorem length_expand_pageProgram (addr : AddrIn) (data : List Byte) :
    (Request.pageProgram addr data).expand.length = 9 + min data.length 256 := by
  have hbracket : (bracketPrims .pageProgram addr (pagePayload data) 0).length =
      3 + 3 + 0 + (pagePayload data).length + 0 := bracketLengthCountsItsFields ..
  have hexpand : (Request.pageProgram addr data).expand =
      wren ++ bracketPrims .pageProgram addr (pagePayload data) 0 := rfl
  have hwren : wren.length = 3 := rfl
  rw [hexpand, List.length_append, hbracket, hwren, length_pagePayload]
  omega

/-- A read with a count has one bracket with an address, a dummy byte and the bytes read (R137). -/
theorem length_bracketPrims_counted {i : Wire} {addr : AddrIn} {n : Nat}
    (h : i = .fastRead ∨ i = .readSecurityRegister) : (bracketPrims i addr [] n).length = 7 + n := by
  rw [bracketLengthCountsItsFields]
  obtain rfl | rfl := h <;> rfl

/-- Settles O30: only PageProgram and the two counted reads have a length their operands decide. -/
theorem programLengths : Obligations.ProgramLengths := by
  intro addr n data sr1 sr2
  have hpage := length_expand_pageProgram addr data
  exact ⟨rfl, rfl, rfl, rfl, length_bracketPrims_counted (.inl rfl), length_bracketPrims_counted (.inr rfl), hpage,
    by omega, rfl, rfl, rfl, rfl, rfl, rfl, rfl, rfl⟩

/-- A bracket opens with SEL and its opcode, and selects no more (R130). -/
theorem bracketPrims_eq_cons {w : Nat} (i : Wire) (a : BitVec w) (out : List Byte) (nin : Nat) :
    ∃ rest, bracketPrims i a out nin = .sel :: .tx i.opcode :: rest ∧ Prim.sel ∉ rest := by
  refine ⟨_, by simp only [bracketPrims, List.cons_append, List.nil_append]; rfl, ?_⟩
  split <;> split <;> split <;> simp

/-- The write-enable bracket written out (R136). -/
theorem wren_eq : wren = [.sel, .tx 0x06#8, .desel] := rfl

/-- A write-class operation is the write-enable bracket and one bracket of the write class (R136, R137). -/
theorem expand_of_writeClass {r : Request} (h : r.writeClass = true) :
    ∃ (w : Nat) (i : Wire) (a : BitVec w) (out : List Byte),
      i.opcode ∈ writeOpcodes ∧ r.expand = wren ++ bracketPrims i a out 0 := by
  cases r with
  | writeStatusRegisters | pageProgram | sectorErase4KB | blockErase32KB | blockErase64KB | chipErase =>
    exact ⟨_, _, _, _, by decide, rfl⟩
  | readStatusRegisters | readData | fastReadData | readSecurityRegister | suspend | resume | powerDown
  | releasePowerDown | deviceID =>
    cases h

/-- Every other operation but ReadStatusRegisters is one bracket, neither write-enable nor of the write class (R137). -/
theorem expand_of_not_writeClass {r : Request} (h : r.writeClass = false) (hr : r ≠ .readStatusRegisters) :
    ∃ (w : Nat) (i : Wire) (a : BitVec w) (out : List Byte) (nin : Nat),
      (i.opcode ≠ 0x06#8 ∧ i.opcode ∉ writeOpcodes) ∧ r.expand = bracketPrims i a out nin := by
  cases r with
  | readStatusRegisters => exact absurd rfl hr
  | readData | fastReadData | readSecurityRegister | suspend | resume | powerDown | releasePowerDown | deviceID =>
    exact ⟨_, _, _, _, _, by decide, rfl⟩
  | writeStatusRegisters | pageProgram | sectorErase4KB | blockErase32KB | blockErase64KB | chipErase => cases h

/-- A write-class operation opens the write-enable bracket, then one of the write class (R136). -/
theorem openers_expand_of_writeClass {r : Request} (h : r.writeClass = true) :
    ∃ opcode ∈ writeOpcodes, openers r.expand = [0x06#8, opcode] := by
  obtain ⟨w, i, a, out, hop, hexpand⟩ := expand_of_writeClass h
  exact ⟨i.opcode, hop, by rw [hexpand, openers_wren_append]⟩

/-- Every other operation opens neither (R136). -/
theorem openers_expand_of_not_writeClass {r : Request} (h : r.writeClass = false) :
    ∀ b ∈ openers r.expand, b ≠ 0x06#8 ∧ b ∉ writeOpcodes := by
  obtain rfl | hr := eq_or_ne r .readStatusRegisters
  · decide
  · obtain ⟨w, i, a, out, nin, hop, hexpand⟩ := expand_of_not_writeClass h hr
    simpa [hexpand, openers_bracketPrims] using hop

/-- Settles O32: the second bracket of the write class has one SEL, its first primitive. -/
theorem writeClassHasTheWriteEnableBracket : Obligations.WriteClassHasTheWriteEnableBracket := by
  refine fun r => ⟨fun h => ?_, openers_expand_of_not_writeClass⟩
  obtain ⟨w, i, a, out, hop, hexpand⟩ := expand_of_writeClass h
  obtain ⟨rest, hbracket, hsel⟩ := bracketPrims_eq_cons i a out 0
  exact ⟨i.opcode, rest, hop, by rw [hexpand, hbracket, wren_eq]; rfl, hsel⟩

/-- A bracket has one SEL. -/
theorem count_sel_bracketPrims {w : Nat} (i : Wire) (a : BitVec w) (out : List Byte) (nin : Nat) :
    (bracketPrims i a out nin).count .sel = 1 := by
  obtain ⟨rest, hbracket, hsel⟩ := bracketPrims_eq_cons i a out nin
  simp [hbracket, List.count_eq_zero.2 hsel]

/-- Two brackets for ReadStatusRegisters and the write class, one for every other operation (R137). -/
theorem count_sel_expand (r : Request) :
    r.expand.count .sel = if r.writeClass = true ∨ r = .readStatusRegisters then 2 else 1 := by
  cases hw : r.writeClass with
  | true =>
    obtain ⟨w, i, a, out, -, hexpand⟩ := expand_of_writeClass hw
    rw [hexpand, List.count_append, count_sel_bracketPrims, wren, count_sel_bracketPrims]
    simp
  | false =>
    obtain rfl | hr := eq_or_ne r .readStatusRegisters
    · rfl
    · obtain ⟨w, i, a, out, nin, -, hexpand⟩ := expand_of_not_writeClass hw hr
      simp [hexpand, count_sel_bracketPrims, hr]

/-- How many brackets stand open at a chip-select level. -/
def openBrackets : ChipSelect → Nat
  | .asserted => 1
  | .deasserted => 0

/-- Where SEL and DESEL alternate, what is open at the start and opened is closed or open at the end (R141). -/
theorem count_sel_of_busLevel {l m : ChipSelect} {ps : List Prim} (h : busLevel l ps = some m) :
    openBrackets l + ps.count .sel = ps.count .desel + openBrackets m := by
  fun_induction busLevel l ps with
  | case1 l =>
    obtain rfl := Option.some.inj h
    simp
  | case2 ps ih | case3 ps ih | case4 _ ps ih | case5 ps ih =>
    have hrest := ih h
    simp only [openBrackets, List.count_cons, beq_iff_eq, reduceCtorEq, if_true, if_false] at hrest ⊢
    omega
  | case6 => cases h

/-- Settles O29: the micro-program is balanced, which makes the counts equal. -/
theorem everyProgramIsBalanced : Obligations.EveryProgramIsBalanced := by
  intro r
  have hbus := busLevel_expand r
  have hcount := count_sel_of_busLevel hbus
  exact ⟨hbus, by simpa [openBrackets] using hcount, count_sel_expand r⟩

/-! ### Bursts (R133) -/

/-- The bursts flatten to the primitives and none of them is empty. -/
def Groups (bursts : List Burst) (prims : List Prim) : Prop :=
  bursts.flatMap Burst.prims = prims ∧ .transmit [] ∉ bursts ∧ .receive 0 ∉ bursts

theorem Groups.append {b c : List Burst} {p q : List Prim} (hb : Groups b p) (hc : Groups c q) :
    Groups (b ++ c) (p ++ q) := by
  obtain ⟨rfl, htx, hrx⟩ := hb
  obtain ⟨rfl, htx', hrx'⟩ := hc
  exact ⟨List.flatMap_append, by simp [htx, htx'], by simp [hrx, hrx']⟩

/-- A field that a row may lack. -/
theorem Groups.ite {c : Bool} {b : List Burst} {p : List Prim} (h : Groups b p) :
    Groups (if c then b else []) (if c then p else []) := by
  cases c with
  | true => exact h
  | false => exact ⟨rfl, List.not_mem_nil, List.not_mem_nil⟩

theorem groups_transmitBurst (bs : List Byte) : Groups (transmitBurst bs) (bs.map .tx) := by
  cases bs <;> simp [Groups, transmitBurst, Burst.prims]

theorem groups_receiveBurst (n : Nat) : Groups (receiveBurst n) (List.replicate n .rx) := by
  cases n <;> simp [Groups, receiveBurst, Burst.prims]

/-- The bursts of a bracket, field by field. -/
theorem groups_bracketBursts {w : Nat} (i : Wire) (a : BitVec w) (out : List Byte) (nin : Nat) :
    Groups (bracketBursts i a out nin) (bracketPrims i a out nin) := by
  have hopen : Groups [.select, .transmit [i.opcode]] [.sel, .tx i.opcode] := by simp [Groups, Burst.prims]
  have hclose : Groups [.deselect] [.desel] := by simp [Groups, Burst.prims]
  have hdummy := groups_transmitBurst (List.replicate i.dummies Config.dummyValue)
  rw [List.map_replicate] at hdummy
  exact ((((hopen.append (groups_transmitBurst _).ite).append hdummy).append (groups_transmitBurst out).ite).append
    (groups_receiveBurst nin).ite).append hclose

/-- Settles O34: the bursts of an operation are those of its brackets. -/
theorem burstsFlattenToTheProgram : Obligations.BurstsFlattenToTheProgram := by
  intro r
  show Groups r.bursts r.expand
  cases r with
  | readStatusRegisters => exact (groups_bracketBursts ..).append (groups_bracketBursts ..)
  | writeStatusRegisters | pageProgram | sectorErase4KB | blockErase32KB | blockErase64KB | chipErase =>
    exact (groups_bracketBursts ..).append (groups_bracketBursts ..)
  | readData | fastReadData | readSecurityRegister | suspend | resume | powerDown | releasePowerDown | deviceID =>
    exact groups_bracketBursts ..

/-! ### Acceptance, one primitive, completion (R138 to R140, R144) -/

/-- An operation is accepted with its micro-program (R138). -/
theorem exec_ofRequest (r : Request) (s : State) :
    exec (Instr.ofRequest r) s = s.accept (.operation r) r.expand := by
  cases r <;> rfl

/-- Settles O11: an operation is accepted with its micro-program and delivers its result. -/
theorem everyOperationRunsToTheEnd : Obligations.EveryOperationRunsToTheEnd :=
  fun r s hs hr => runsToTheEnd_of_accept (job := .operation r) (exec_ofRequest r s) hs hr fun _ _ => rfl

/-- A pending direct invocation that decodes is taken. -/
theorem State.fetched_of_call {s : State} {ps : List Prim} {i : Instr} (hcall : s.call = some ps)
    (h : decode (.bracket ps) = .ok i) : s.fetched = some (i, { s with call := none }) := by
  simp only [State.fetched, hcall, h]

/-- With none pending, the request at the head of the port is taken if it decodes. -/
theorem State.fetched_of_port {s : State} {p : PortRequest} {ps : List PortRequest} {i : Instr} (hcall : s.call = none)
    (hport : s.port = p :: ps) (h : decode (.request p) = .ok i) : s.fetched = some (i, { s with port := ps }) := by
  simp only [State.fetched, hcall, hport, h]

/-- Settles O36: what is presented is taken and given to the sequencer. -/
theorem stepRunsThePresentedInstruction : Obligations.StepRunsThePresentedInstruction :=
  fun _ hs hrst =>
    ⟨fun _ _ _ hcall hport h => step_idle hrst hs (State.fetched_of_port hcall hport h),
      fun _ _ hcall h => step_idle hrst hs (State.fetched_of_call hcall h)⟩

/-- Settles O38: the step performs the primitive at `pos`. -/
theorem stepPerformsThePrimitive : Obligations.StepPerformsThePrimitive := by
  intro s job prog pos rx hs hrst hbus hstall
  have hstep {p : Prim} (hp : prog[pos]? = some p) := step_perform hrst hbus hstall hs hp
  refine ⟨fun hp => ⟨_, hstep hp, ?_⟩, fun hp => ⟨_, hstep hp, ?_⟩, fun b hp => ⟨_, hstep hp, ?_⟩,
    fun hp => ⟨_, s.nextByte, hstep hp, rfl, rfl, rfl, fun a as ha => ?_, fun ha => ?_⟩⟩
  · simp [State.received, State.levelAfter, State.eventOf]
  · simp [State.received, State.levelAfter, State.eventOf]
  · simp [State.received, State.levelAfter, State.eventOf]
  · simp [State.nextByte, ha]
  · simp [State.nextByte, ha]

/-- The operations that give no value, whatever was received (R140). -/
theorem resultOf_eq_noValue {r : Request}
    (h : r.writeClass = true ∨ r = .suspend ∨ r = .resume ∨ r = .powerDown ∨ r = .releasePowerDown)
    (rx : List Byte) : resultOf (.operation r) rx = .noValue := by
  cases r with
  | writeStatusRegisters | pageProgram | sectorErase4KB | blockErase32KB | blockErase64KB | chipErase | suspend | resume
  | powerDown | releasePowerDown => rfl
  | readStatusRegisters | readData | fastReadData | readSecurityRegister | deviceID => simp [Request.writeClass] at h

/-- Settles O39: the step completes the job with its result. -/
theorem completionDeliversTheResult : Obligations.CompletionDeliversTheResult := by
  intro s job prog rx hs hrst hbus
  refine ⟨s.complete job rx, resultOf job rx, step_complete hrst hbus hs le_rfl, rfl, rfl, rfl, rfl, ?_, ?_, ?_, ?_⟩
  · rintro s1 s2 rfl rfl
    rfl
  · rintro a b (rfl | rfl) rfl <;> rfl
  · rintro a n (rfl | rfl) <;> rfl
  · rintro r rfl h
    exact resultOf_eq_noValue h rx

/-- Settles O41: acceptance waits in `Run`, where only reset, completion and primitives happen. -/
theorem requestWaitsWhileRunning : Obligations.RequestWaitsWhileRunning := by
  intro s job prog pos rx hs
  refine ⟨fun r => (exec_ofRequest r s).trans (State.accept_run hs ..), fun t hstep => ?_⟩
  obtain ⟨-, rfl⟩ | ⟨-, ⟨job', prog', pos', rx', -, -, hrun⟩ | ⟨hidle, -⟩⟩ := step_cases hstep
  · exact ⟨State.applyReset_port s, State.applyReset_call s⟩
  · obtain ⟨-, rfl⟩ | ⟨p, -, -, rfl⟩ := hrun
    · exact ⟨State.complete_port .., State.complete_call ..⟩
    · exact ⟨State.perform_port .., State.perform_call ..⟩
  · rw [hs] at hidle
    cases hidle

end Sys2Proof.Machine
end

section
/-! SUPPORT. Runs of the sequencer (41_sequencer.md R139, R141, R143, R145): through the first primitives of a
micro-program, into a hang, through a host program; and the order of write-class brackets (R136). -/

namespace Sys2Proof.Machine

open Sys2Proof (core)

/-! ### The first `k` primitives of a micro-program (R139) -/

/-- A run whose last step is known. -/
theorem run_succ_last {k : Nat} {s t u : State} (hrun : Host.Core.run core k s = .next t) (hstep : step t = .next u) :
    Host.Core.run core (k + 1) s = .next u :=
  (run_add hrun 1).trans (run_succ hstep 0)

/-- The last step of a run that answers a next state. -/
theorem run_succ_last_next {k : Nat} : ∀ {s u : State}, Host.Core.run core (k + 1) s = .next u →
    ∃ t, Host.Core.run core k s = .next t ∧ step t = .next u := by
  induction k with
  | zero =>
    intro s u h
    obtain ⟨t, hstep, hrun⟩ := run_succ_next h
    exact ⟨s, rfl, hstep.trans hrun⟩
  | succ k ih =>
    intro s u h
    obtain ⟨t, hstep, hrun⟩ := run_succ_next h
    obtain ⟨v, hv, hlast⟩ := ih hrun
    exact ⟨v, (run_succ hstep k).trans hv, hlast⟩

/-- Counting off one primitive is subtraction. -/
theorem stallTick_eq_map (left : Option Nat) : stallTick left = left.map (· - 1) := by
  simpa using stallTick_map left 0

/-- A transport that completes `m + n` primitives completes `n` once `m` are counted off. -/
theorem all_le_sub {left : Option Nat} {m n : Nat} (h : (left.all fun k => decide (m + n ≤ k)) = true) :
    ((left.map (· - m)).all fun k => decide (n ≤ k)) = true := by
  cases left with
  | none => rfl
  | some k =>
    have hk : m + n ≤ k := of_decide_eq_true h
    exact decide_eq_true (Nat.le_sub_of_add_le' hk)

/-- A transport that completes `n` primitives completes fewer. -/
theorem TransportCompletes.mono {m n : Nat} {s : State} (h : TransportCompletes n s) (hmn : m ≤ n) :
    TransportCompletes m s := by
  unfold TransportCompletes at h ⊢
  cases hl : s.stallIn with
  | none => rfl
  | some k =>
    rw [hl] at h
    have hk : n ≤ k := of_decide_eq_true h
    exact decide_eq_true (hmn.trans hk)

theorem lastLevel_append (ps qs : List Prim) : ∀ l, lastLevel l (ps ++ qs) = lastLevel (lastLevel l ps) qs := by
  induction ps with
  | nil => exact fun _ => rfl
  | cons p ps ih => intro l; cases p <;> exact ih _

theorem State.levelAfter_eq_lastLevel (s : State) (p : Prim) : s.levelAfter p = lastLevel s.sel [p] := by
  cases p <;> rfl

/-- Where SEL and DESEL alternate, the level they leave is the last one. -/
theorem lastLevel_of_busLevel {ps : List Prim} {l m : ChipSelect} (h : busLevel l ps = some m) :
    lastLevel l ps = m := by
  fun_induction busLevel l ps with
  | case1 => exact Option.some.inj h
  | case2 ps ih | case3 ps ih | case4 _ ps ih | case5 ps ih => exact ih h
  | case6 => cases h

/-- From chip-select deasserted a SEL comes first, so the level before does not matter. -/
theorem lastLevel_eq_of_ne_nil {ps : List Prim} {m : ChipSelect} (h : busLevel .deasserted ps = some m)
    (hps : ps ≠ []) (l : ChipSelect) : lastLevel l ps = m := by
  obtain ⟨p, ps, rfl⟩ := List.exists_cons_of_ne_nil hps
  cases p with
  | sel => exact lastLevel_of_busLevel (l := .asserted) h
  | desel | tx | rx => cases h

/-- `u` is where `s` has come once it has started a job and performed the first `k` primitives of the micro-program:
the events of those are recorded, whatever was received, and nothing else is. -/
structure Reached (s : State) (job : Job) (prog : List Prim) (k : Nat) (u : State) : Prop where
  seq : ∃ rx, u.seq = .run job prog k rx
  trace : ∃ es, u.trace = s.trace ++ es ∧ skeleton es = prog.take k
  sel : u.sel = lastLevel s.sel (prog.take k)
  rst : u.rst = s.rst
  otherAgent : u.otherAgent = s.otherAgent
  stallIn : u.stallIn = s.stallIn.map (· - k)

section
variable {s : State} {job : Job} {prog : List Prim} {k : Nat}

/-- Acceptance is the start (R138). -/
theorem reached_start (s : State) (job : Job) (prog : List Prim) : Reached s job prog 0 (s.start job prog) :=
  ⟨⟨[], rfl⟩, ⟨[], by simp, rfl⟩, rfl, rfl, rfl, by simp⟩

/-- Before the end a step performs the next primitive. -/
theorem Reached.step {u v : State} (h : Reached s job prog k u) (hrst : s.rst = false) (hk : k < prog.length)
    (hstep : step u = .next v) : Reached s job prog (k + 1) v := by
  obtain ⟨⟨rx, hseq⟩, ⟨es, htrace, hes⟩, hsel, hrst', hbus, hstall⟩ := h
  rw [step_run (hrst'.trans hrst) hseq] at hstep
  obtain ⟨-, ⟨hend, -⟩ | ⟨p, hp, -, rfl⟩⟩ := State.advance_next hstep
  · omega
  have htake : prog.take (k + 1) = prog.take k ++ [p] := by simp [List.take_add_one, hp]
  refine ⟨⟨_, State.perform_seq ..⟩, ⟨es ++ [u.eventOf p], ?_, ?_⟩, ?_, ?_, ?_, ?_⟩
  · simp [htrace]
  · rw [htake, skeleton_append, hes, skeleton_eventOf]
  · rw [State.perform_sel, State.levelAfter_eq_lastLevel, hsel, htake, lastLevel_append]
  · rw [State.perform_rst, hrst']
  · rw [State.perform_otherAgent, hbus]
  · rw [State.perform_stallIn, stallTick_eq_map, hstall, Option.map_map]
    rfl

/-- A run of `k` steps that answers a next state has performed the first `k` primitives. -/
theorem reached_of_run (hrst : s.rst = false) : ∀ {k : Nat} {u : State}, k ≤ prog.length →
    Host.Core.run core k (s.start job prog) = .next u → Reached s job prog k u := by
  intro k
  induction k with
  | zero =>
    rintro _ - ⟨⟩
    exact reached_start s job prog
  | succ k ih =>
    intro u hk h
    obtain ⟨t, hrun, hstep⟩ := run_succ_last_next h
    exact (ih (by omega) hrun).step hrst hk hstep

/-- A transport that completes `k` primitives lets the operation perform its first `k`. -/
theorem exists_run_of_ready : ∀ {k : Nat}, Ready k s → k ≤ prog.length →
    ∃ u, Host.Core.run core k (s.start job prog) = .next u := by
  intro k
  induction k with
  | zero => exact fun _ _ => ⟨_, rfl⟩
  | succ k ih =>
    intro ⟨hbus, hstall, hrst⟩ hk
    obtain ⟨u, hrun⟩ := ih ⟨hbus, hstall.mono (Nat.le_succ k), hrst⟩ (by omega)
    obtain ⟨⟨rx, hseq⟩, -, -, hrst', hbus', hstall'⟩ := reached_of_run hrst (by omega) hrun
    have hnow : u.stallIn ≠ some 0 := hstall' ▸ (stallTick_all (n := 0) (all_le_sub hstall)).1
    exact ⟨_, run_succ_last hrun (step_perform (hrst'.trans hrst) (hbus'.trans hbus) hnow hseq
      (List.getElem?_eq_getElem hk))⟩

end

/-- Settles O54: in both states the events are those of the first `k` primitives. -/
theorem transmittedBytesDependOnTheRequestAlone : Obligations.TransmittedBytesDependOnTheRequestAlone := by
  intro r s1 s2 t1 t2 u1 u2 k hs1 hs2 hrst1 hrst2 he1 he2 hk hrun1 hrun2
  rw [exec_ofRequest, State.accept_idle ‹_›] at he1 he2
  cases he1
  cases he2
  obtain ⟨e1, htrace1, hes1⟩ := (reached_of_run hrst1 hk hrun1).trace
  obtain ⟨e2, htrace2, hes2⟩ := (reached_of_run hrst2 hk hrun2).trace
  exact ⟨e1, e2, htrace1, htrace2, hes1.trans hes2.symm, hes1⟩

/-! ### The hung transport (R143) -/

/-- With no primitive left to complete, a step before the end of the micro-program is the stop. -/
theorem step_hangs {s : State} {job : Job} {prog : List Prim} {pos : Nat} {rx : List Byte} (hrst : s.rst = false)
    (hbus : s.otherAgent = false) (hstall : s.stallIn = some 0) (hs : s.seq = .run job prog pos rx)
    (hpos : pos < prog.length) : step s = .fault .transportNeverCompletes := by
  simp [step_run hrst hs, State.advance, hbus, hstall, hpos]

/-- A run that reaches a stop stays there. -/
theorem run_fault {s : State} {f : Fault} (h : step s = .fault f) (m : Nat) :
    Host.Core.run core (m + 1) s = .fault f := by
  have hc : core.step s = .fault f := h
  simp only [Host.Core.run, hc]

/-- Settles O40: `k` steps lead to `pos = k` with nothing left that the transport completes. -/
theorem hungTransportStopsTheSequencer : Obligations.HungTransportStopsTheSequencer := by
  intro r s k hs hrst hbus hstall hk
  have hready : Ready k s := ⟨hbus, by simp [TransportCompletes, hstall], hrst⟩
  obtain ⟨u, hrun⟩ := exists_run_of_ready (job := .operation r) hready hk.le
  obtain ⟨⟨rx, hseq⟩, ⟨es, htrace, hes⟩, hsel, hrst', hbus', hstall'⟩ := reached_of_run hrst hk.le hrun
  have hstop : step u = .fault .transportNeverCompletes :=
    step_hangs (hrst'.trans hrst) (hbus'.trans hbus) (by simp [hstall', hstall]) hseq hk
  refine ⟨_, u, rx, (exec_ofRequest r s).trans (State.accept_idle hs ..), hrun, hseq,
    by rw [htrace, skeleton_append, hes], fun hpos => ?_, hstop, fun m => ?_⟩
  · have hne : r.expand.take k ≠ [] := by
      simp [← List.length_pos_iff]
      omega
    have hprefix := (busLevel_append (r.expand.take k) (r.expand.drop k) .deasserted).symm
    rw [List.take_append_drop, busLevel_expand] at hprefix
    obtain ⟨m, hm, -⟩ := Option.bind_eq_some_iff.1 hprefix
    rw [hm, hsel, lastLevel_eq_of_ne_nil hm hne]
  · rw [Nat.add_assoc, Nat.add_comm 1 m, run_add hrun, run_fault hstop]

/-! ### A host program (R145) -/

/-- The state once the request `r` has been served from the port, with `rest` behind it and the received bytes `bs`. -/
def State.served (s : State) (r : Request) (rest : List PortRequest) (bs : List Byte) : State :=
  { s with
    seq := .idle
    sel := .deasserted
    port := rest
    done := some (resultOf (.operation r) bs)
    delivered := s.delivered ++ [resultOf (.operation r) bs]
    trace := s.trace ++ playback r.expand bs
    answers := s.answers.drop (r.expand.count .rx)
    draws := s.draws + (r.expand.count .rx - s.answers.length)
    stallIn := s.stallIn.map (· - r.expand.length) }

@[simp] theorem State.served_trace (s : State) (r : Request) (rest : List PortRequest) (bs : List Byte) :
    (s.served r rest bs).trace = s.trace ++ playback r.expand bs := rfl

@[simp] theorem State.served_delivered (s : State) (r : Request) (rest : List PortRequest) (bs : List Byte) :
    (s.served r rest bs).delivered = s.delivered ++ [resultOf (.operation r) bs] := rfl

/-- A request waiting at the head of the port is accepted and runs to its end in the steps of its micro-program and two
more, the rest of the port untouched. -/
theorem run_request {r : Request} {s : State} {rest : List PortRequest} (hr : Ready r.expand.length s)
    (hs : s.seq = .idle) (hcall : s.call = none) (hport : s.port = encodeRequest r :: rest)
    (hwf : (Instr.ofRequest r).WellFormed) :
    ∃ bs : List Byte, bs.length = r.expand.count .rx ∧
      Host.Core.run core (r.expand.length + 2) s = .next (s.served r rest bs) := by
  have hdecode : decode (.request (encodeRequest r)) = .ok (Instr.ofRequest r) := by
    rw [← encode_ofRequest, decode_encode_ofRequest r hwf]
  obtain ⟨hbus, hstall, hrst⟩ := hr
  obtain ⟨hexec, bs, hlen, -, hrun⟩ :=
    everyOperationRunsToTheEnd r { s with port := rest } hs ⟨hbus, hstall, hrst⟩
  have hstep := (step_idle hrst hs (State.fetched_of_port hcall hport hdecode)).trans hexec
  exact ⟨bs, hlen, (run_succ hstep _).trans hrun⟩

/-- Settles O55, by induction on the program: the first request runs to its end, and what is left meets the premises
for the rest. -/
theorem hostProgramRunsInOrder : Obligations.HostProgramRunsInOrder := by
  intro rs
  induction rs with
  | nil =>
    intro s _ hs hsel _ hport _
    exact ⟨[], s, rfl, rfl, hs, hsel, hport, by simp, by simp⟩
  | cons r rs ih =>
    intro s ⟨hbus, hstall, hrst⟩ hs hsel hcall hport hwf
    rw [List.map_cons, List.sum_cons] at hstall
    rw [List.forall_mem_cons] at hwf
    obtain ⟨bs, hlen, hrun⟩ := run_request ⟨hbus, hstall.mono (Nat.le_add_right ..), hrst⟩ hs hcall hport hwf.1
    obtain ⟨bss, u, hbss, hrest, hidle, hdesel, hempty, htrace, hdelivered⟩ :=
      ih (s.served r (rs.map encodeRequest) bs) ⟨hbus, all_le_sub hstall, hrst⟩ rfl rfl hcall rfl hwf.2
    refine ⟨bs :: bss, u, by rw [List.map_cons, hlen, hbss]; rfl, ?_, hidle, hdesel, hempty, ?_, ?_⟩
    · rw [List.map_cons, List.sum_cons, run_add hrun, hrest]
    · simp [htrace]
    · simp [hdelivered]

/-! ### The order of write-class brackets (R136; 70_reset_and_hazards.md R250) -/

/-- Openers that are armed whatever comes before them may follow any armed ones. -/
theorem armedAfter_append {as bs : List Byte} (hbs : ∀ x, armedAfter x bs) :
    ∀ {x : Option Byte}, armedAfter x as → armedAfter x (as ++ bs) := by
  induction as with
  | nil => exact fun _ => hbs _
  | cons a as ih => exact fun ⟨ha, has⟩ => ⟨ha, ih has⟩

/-- The first of armed openers are armed. -/
theorem armedAfter_of_append {as bs : List Byte} :
    ∀ {x : Option Byte}, armedAfter x (as ++ bs) → armedAfter x as := by
  induction as with
  | nil => exact fun _ => trivial
  | cons a as ih => exact fun ⟨ha, has⟩ => ⟨ha, ih has⟩

theorem armedAfter_of_prefix {as bs : List Byte} {x : Option Byte} (h : as <+: bs) (hbs : armedAfter x bs) :
    armedAfter x as := by
  obtain ⟨cs, rfl⟩ := h
  exact armedAfter_of_append hbs

/-- Openers with no write-class opcode are armed. -/
theorem armedAfter_of_not_mem {bs : List Byte} (h : ∀ b ∈ bs, b ∉ writeOpcodes) : ∀ x, armedAfter x bs := by
  induction bs with
  | nil => exact fun _ => trivial
  | cons b bs ih =>
    rw [List.forall_mem_cons] at h
    exact fun _ => ⟨fun hb => absurd hb h.1, ih h.2 _⟩

/-- The openers of an operation are armed whatever comes before it. -/
theorem armedAfter_openers_expand (r : Request) (x : Option Byte) : armedAfter x (openers r.expand) := by
  cases hw : r.writeClass with
  | true =>
    obtain ⟨opcode, -, hopeners⟩ := openers_expand_of_writeClass hw
    have hwren : 0x06#8 ∉ writeOpcodes := by decide
    rw [hopeners]
    exact ⟨fun h => absurd h hwren, fun _ => rfl, trivial⟩
  | false => exact armedAfter_of_not_mem (fun b hb => (openers_expand_of_not_writeClass hw b hb).2) x

/-- The openers of a first part are the first openers of the whole. -/
theorem openers_prefix_append (ps qs : List Prim) : openers ps <+: openers (ps ++ qs) := by
  induction ps with
  | nil => exact List.nil_prefix
  | cons p ps ih =>
    cases p with
    | sel =>
      obtain rfl | hne := eq_or_ne ps []
      · exact List.nil_prefix
      · simpa [openers, firstTx_append hne] using ih
    | desel | tx | rx => exact ih

/-- Performing the next primitive keeps the write-class brackets armed: before the operation there are whole brackets,
and the openers of the operation are the first of its micro-program's. -/
theorem WritesArmed.perform {s : State} (h : WritesArmed s) (hinv : SequencerInv s) {r : Request} {prog : List Prim}
    {pos : Nat} {rx : List Byte} {p : Prim} (hs : s.seq = .run (.operation r) prog pos rx) (hp : prog[pos]? = some p) :
    WritesArmed (s.perform (.operation r) prog pos rx p) := by
  obtain ⟨-, -, rfl, -, -, past, now, htrace, hpast, hnow, -⟩ := (sequencerInv_run_iff hs).1 hinv
  have hskeleton : skeleton (s.perform (.operation r) (Job.operation r).program pos rx p).trace =
      skeleton past ++ r.expand.take (pos + 1) := by
    simp [htrace, hnow, List.take_add_one, hp, ← show (Job.operation r).program = r.expand from rfl]
  have harmed : armedAfter none (openers (skeleton past)) := by
    refine armedAfter_of_prefix (openers_prefix_append _ (skeleton now)) ?_
    rwa [← skeleton_append, ← htrace]
  have hfirst : openers (r.expand.take (pos + 1)) <+: openers r.expand := by
    simpa using openers_prefix_append (r.expand.take (pos + 1)) (r.expand.drop (pos + 1))
  rw [WritesArmed, hskeleton, openers_append_of_balanced hpast]
  exact armedAfter_append (fun x => armedAfter_of_prefix hfirst (armedAfter_openers_expand r x)) harmed

/-- Reset keeps the write-class brackets armed: it records at most a DESEL. -/
theorem WritesArmed.applyReset {s : State} (h : WritesArmed s) : WritesArmed s.applyReset := by
  rw [WritesArmed, State.applyReset_trace]
  cases s.sel with
  | asserted => rwa [skeleton_append, show skeleton [.desel] = [Prim.desel] from rfl, openers_append_desel]
  | deasserted => exact h

theorem WritesArmed.of_trace_eq {s t : State} (h : WritesArmed s) (htrace : t.trace = s.trace) : WritesArmed t := by
  rwa [WritesArmed, htrace]

/-- In `Run` where only the host's requests are served, the job is an operation. -/
theorem HostOnly.exists_operation {s : State} (h : HostOnly s) {job : Job} {prog : List Prim} {pos : Nat}
    {rx : List Byte} (hs : s.seq = .run job prog pos rx) : ∃ r, job = .operation r := by
  obtain ⟨-, hjob⟩ := h
  rwa [hs] at hjob

/-- Settles O49: only performing a primitive and reset record an event. -/
theorem stepKeepsWritesArmed : Obligations.StepKeepsWritesArmed := by
  intro s t hhost hinv h hstep
  obtain ⟨-, rfl⟩ | ⟨-, ⟨job, prog, pos, rx, hs, -, hrun⟩ | ⟨-, hidle⟩⟩ := step_cases hstep
  · exact h.applyReset
  · obtain ⟨r, rfl⟩ := hhost.exists_operation hs
    obtain ⟨-, rfl⟩ | ⟨p, hp, -, rfl⟩ := hrun
    · exact h.of_trace_eq (State.complete_trace ..)
    · exact h.perform hinv hs hp
  · obtain ⟨-, rfl⟩ | ⟨i, u, hf, he⟩ := hidle
    · exact h
    · exact h.of_trace_eq ((exec_keeps_histories he).1.trans (State.fetched_keeps_histories hf).1)

end Sys2Proof.Machine
end

section
/-! SUPPORT. The status-register operations (42_status_ops.md), and for the operations of 42 to 45 what they share: the
operation a request decodes to, and a run to the end of an operation's literal micro-program. -/

namespace Sys2Proof.Machine

/-! ### An operation from its request to its result (30_encoding.md R92; 41_sequencer.md R138 to R140) -/

/-- A request decodes to the operation its selector and operands name. -/
theorem decode_request {p : PortRequest} {r : Request} (h : decodeRequest p = .ok r) :
    decode (.request p) = .ok (Instr.ofRequest r) := by
  rw [decode, h]

/-- `Performs` names fewer fields of the last state than `RunsToTheEnd` gives. -/
theorem RunsToTheEnd.performs {i : Instr} {r : Request} {prog : List Prim} {result : List Byte → Result} {s : State}
    (h : RunsToTheEnd i (.operation r) prog result s) : Performs i r prog result s := by
  obtain ⟨hexec, bs, hlen, hans, hrun⟩ := h
  exact ⟨_, _, bs, hexec, rfl, rfl, rfl, hlen, hans, hrun, rfl, rfl, rfl, rfl⟩

/-- An operation performs its micro-program, written out as `prog`, and delivers its result, written out for as many
bytes as `prog` receives. -/
theorem performs_of_expand {r : Request} {prog : List Prim} {k : Nat} {result : List Byte → Result} {s : State}
    (hexpand : r.expand = prog) (hlen : prog.length = k) (hs : s.seq = .idle) (hr : Ready k s)
    (hres : ∀ bs, bs.length = prog.count .rx → resultOf (.operation r) bs = result bs) :
    Performs (Instr.ofRequest r) r prog result s := by
  subst hexpand hlen
  exact (runsToTheEnd_of_accept (job := .operation r) (exec_ofRequest r s) hs hr hres).performs

/-! ### The two status-register operations (R150, R152) -/

/-- Settles O1: the two brackets receive two bytes, and the result is the flags of both. -/
theorem readStatusRegistersReadsBothRegisters : Obligations.ReadStatusRegistersReadsBothRegisters := by
  refine ⟨fun p hp => decode_request (r := .readStatusRegisters) (by simp [decodeRequest, hp]), fun s hs hr => ?_⟩
  refine performs_of_expand (r := .readStatusRegisters) rfl rfl hs hr fun bs hlen => ?_
  obtain ⟨s1, s2, rfl⟩ := List.length_eq_two.1 hlen
  rfl

/-- Settles O2: the micro-program is the write-enable bracket and the bracket of both bytes; there is no result. -/
theorem writeStatusRegistersSendsBothBytes : Obligations.WriteStatusRegistersSendsBothBytes := by
  refine ⟨fun p hp => decode_request (r := .writeStatusRegisters p.sr1 p.sr2) (by simp [decodeRequest, hp]),
    fun sr1 sr2 s hs hr => ?_⟩
  exact performs_of_expand (r := .writeStatusRegisters sr1 sr2) rfl rfl hs hr fun _ _ => rfl

end Sys2Proof.Machine
end

section
/-! SUPPORT. The read operations (43_read_ops.md): the brackets with an address that receive, written out for an address
of the port's width, and the four operations. -/

namespace Sys2Proof.Machine

/-! ### Brackets with an address of the port's width (40_codecs.md R111) -/

/-- The bytes sent are the low three of the address as the port holds it: bits above 23 have no influence. -/
theorem addrEnc_addrIn (a : AddrIn) : addrEnc a = [a.extractLsb' 16 8, a.extractLsb' 8 8, a.extractLsb' 0 8] := by
  simp [addrEnc, trunc24, BitVec.extractLsb'_setWidth_of_le]

/-- A bracket of a row with an address, the address bytes written out. -/
theorem bracketPrims_addrIn {i : Wire} (h : i.hasAddr = true) (a : AddrIn) (out : List Byte) (nin : Nat) :
    bracketPrims i a out nin =
      [.sel, .tx i.opcode, .tx (a.extractLsb' 16 8), .tx (a.extractLsb' 8 8), .tx (a.extractLsb' 0 8)]
        ++ List.replicate i.dummies (.tx Config.dummyValue)
        ++ (if i.sends then out.map .tx else [])
        ++ (if i.receives then List.replicate nin .rx else [])
        ++ [.desel] := by
  simp [bracketPrims, h, addrEnc_addrIn]

/-! ### The four read operations (R160, R163, R166, R168) -/

/-- Settles O3: one bracket with the address bytes receives one byte, which is the result. -/
theorem readDataReadsOneByte : Obligations.ReadDataReadsOneByte := by
  refine ⟨fun p hp => decode_request (r := .readData p.addr) (by simp [decodeRequest, hp]), fun addr s hs hr => ?_⟩
  refine performs_of_expand (r := .readData addr) (bracketPrims_addrIn rfl addr [] 1) rfl hs hr fun bs hlen => ?_
  obtain ⟨r0, rfl⟩ := List.length_eq_one_iff.1 hlen
  rfl

/-- Settles O4: one bracket with the address bytes and one dummy receives `n` bytes, all of which are the result. -/
theorem fastReadDataReadsNBytes : Obligations.FastReadDataReadsNBytes := by
  refine ⟨fun p hp => decode_request (r := .fastReadData p.addr p.n.toNat) (by simp [decodeRequest, hp]),
    fun addr n s hs hr => ?_⟩
  have hbracket := bracketPrims_addrIn (i := .fastRead) rfl addr [] n
  exact performs_of_expand (r := .fastReadData addr n) hbracket
    ((congrArg List.length hbracket).symm.trans (length_bracketPrims_counted (.inl rfl))) hs hr fun _ _ => rfl

/-- Settles O5: as FastReadData, with the opcode of the security registers. -/
theorem readSecurityRegisterReadsNBytes : Obligations.ReadSecurityRegisterReadsNBytes := by
  refine ⟨fun p hp => decode_request (r := .readSecurityRegister p.addr p.n.toNat) (by simp [decodeRequest, hp]),
    fun addr n s hs hr => ?_⟩
  have hbracket := bracketPrims_addrIn (i := .readSecurityRegister) rfl addr [] n
  exact performs_of_expand (r := .readSecurityRegister addr n) hbracket
    ((congrArg List.length hbracket).symm.trans (length_bracketPrims_counted (.inr rfl))) hs hr fun _ _ => rfl

/-- Settles O6: one bracket with three dummies and no address receives one byte, which is the result. -/
theorem deviceIDProbesWithTheReleaseOpcode : Obligations.DeviceIDProbesWithTheReleaseOpcode := by
  refine ⟨fun p hp => decode_request (r := .deviceID) (by simp [decodeRequest, hp]), fun s hs hr => ?_⟩
  refine performs_of_expand (r := .deviceID) rfl rfl hs hr fun bs hlen => ?_
  obtain ⟨r0, rfl⟩ := List.length_eq_one_iff.1 hlen
  rfl

end Sys2Proof.Machine
end

section
/-! SUPPORT. The program and erase operations (44_program_erase_ops.md): the write-enable bracket and the bracket with
an address behind it, written out for an address of the port's width, and the five operations. -/

namespace Sys2Proof.Machine

/-! ### The write-enable bracket and a bracket with an address (41_sequencer.md R131, R136) -/

/-- A write-enable bracket and a bracket with an address, without dummies or received bytes, written out. -/
theorem wren_append_bracketPrims_addrIn {i : Wire} (haddr : i.hasAddr = true) (hdummies : i.dummies = 0)
    (hreceives : i.receives = false) (a : AddrIn) (out : List Byte) (nin : Nat) :
    wren ++ bracketPrims i a out nin =
      [.sel, .tx 0x06#8, .desel, .sel, .tx i.opcode, .tx (a.extractLsb' 16 8), .tx (a.extractLsb' 8 8),
        .tx (a.extractLsb' 0 8)] ++ (if i.sends then out.map .tx else []) ++ [.desel] := by
  simp [wren_eq, bracketPrims_addrIn haddr, hdummies, hreceives]

/-! ### The five operations (R175, R176, R180 to R183) -/

/-- Settles O7: the payload behind the address is the leading page of the data (R176). -/
theorem pageProgramSendsTheLeadingPage : Obligations.PageProgramSendsTheLeadingPage := by
  refine ⟨fun p hp => decode_request (r := .pageProgram p.addr p.data) (by simp [decodeRequest, hp]),
    fun addr data s hs hr => ?_⟩
  have hexpand := wren_append_bracketPrims_addrIn (i := .pageProgram) rfl rfl rfl addr (pagePayload data) 0
  exact performs_of_expand (r := .pageProgram addr data) hexpand
    ((congrArg List.length hexpand).symm.trans (length_expand_pageProgram addr data)) hs hr fun _ _ => rfl

/-- Settles O8: the three erases differ in their opcode alone. -/
theorem addressedErasesSendOpcodeAndAddress : Obligations.AddressedErasesSendOpcodeAndAddress := by
  refine ⟨fun p hp => decode_request (r := .sectorErase4KB p.addr) (by simp [decodeRequest, hp]),
    fun p hp => decode_request (r := .blockErase32KB p.addr) (by simp [decodeRequest, hp]),
    fun p hp => decode_request (r := .blockErase64KB p.addr) (by simp [decodeRequest, hp]),
    fun addr s hs hr => ⟨?_, ?_, ?_⟩⟩
  · exact performs_of_expand (r := .sectorErase4KB addr)
      (wren_append_bracketPrims_addrIn rfl rfl rfl addr [] 0) rfl hs hr fun _ _ => rfl
  · exact performs_of_expand (r := .blockErase32KB addr)
      (wren_append_bracketPrims_addrIn rfl rfl rfl addr [] 0) rfl hs hr fun _ _ => rfl
  · exact performs_of_expand (r := .blockErase64KB addr)
      (wren_append_bracketPrims_addrIn rfl rfl rfl addr [] 0) rfl hs hr fun _ _ => rfl

/-- Settles O9: the write-enable bracket and a bracket of the opcode alone; there is no result. -/
theorem chipEraseSendsTheOpcodeAlone : Obligations.ChipEraseSendsTheOpcodeAlone := by
  refine ⟨fun p hp => decode_request (r := .chipErase) (by simp [decodeRequest, hp]), fun s hs hr => ?_⟩
  exact performs_of_expand (r := .chipErase) rfl rfl hs hr fun _ _ => rfl

end Sys2Proof.Machine
end

section
/-! SUPPORT. The control operations (45_control_ops.md): the four operations of one byte, and that serving the host's
requests starts operations only. -/

namespace Sys2Proof.Machine

/-! ### The four operations of one byte (R190 to R193) -/

/-- Settles O10: each is one bracket of its opcode alone; there is no result. -/
theorem controlOperationsSendOneByte : Obligations.ControlOperationsSendOneByte := by
  refine ⟨fun p hp => decode_request (r := .suspend) (by simp [decodeRequest, hp]),
    fun p hp => decode_request (r := .resume) (by simp [decodeRequest, hp]),
    fun p hp => decode_request (r := .powerDown) (by simp [decodeRequest, hp]),
    fun p hp => decode_request (r := .releasePowerDown) (by simp [decodeRequest, hp]),
    fun s hs hr => ⟨?_, ?_, ?_, ?_⟩⟩
  · exact performs_of_expand (r := .suspend) rfl rfl hs hr fun _ _ => rfl
  · exact performs_of_expand (r := .resume) rfl rfl hs hr fun _ _ => rfl
  · exact performs_of_expand (r := .powerDown) rfl rfl hs hr fun _ _ => rfl
  · exact performs_of_expand (r := .releasePowerDown) rfl rfl hs hr fun _ _ => rfl

/-! ### Serving requests never starts a bracket alone (R195) -/

/-- A request that decodes at all decodes to an operation (30_encoding.md R92). -/
theorem exists_ofRequest_of_decode_request {p : PortRequest} {i : Instr} (h : decode (.request p) = .ok i) :
    ∃ r : Request, i = Instr.ofRequest r := by
  cases hd : decodeRequest p with
  | ok r => exact ⟨r, Except.ok.inj (h.symm.trans (decode_request hd))⟩
  | error e => simp [decode, hd] at h

theorem hostOnly_of_idle {s : State} (hcall : s.call = none) (hs : s.seq = .idle) : HostOnly s :=
  ⟨hcall, by rw [hs]; trivial⟩

theorem hostOnly_of_run {s : State} {r : Request} {prog : List Prim} {pos : Nat} {rx : List Byte}
    (hcall : s.call = none) (hs : s.seq = .run (.operation r) prog pos rx) : HostOnly s :=
  ⟨hcall, by rw [hs]; exact ⟨r, rfl⟩⟩

/-- With no direct invocation pending, what is taken is an operation. -/
theorem HostOnly.fetched {s u : State} {i : Instr} (h : HostOnly s) (hf : s.fetched = some (i, u)) :
    HostOnly u ∧ ∃ r : Request, i = Instr.ofRequest r := by
  obtain ⟨hcall, hjob⟩ := h
  obtain ⟨ps, hsome, -, -⟩ | ⟨p, ps, -, -, hdecode, rfl⟩ := State.fetched_some hf
  · rw [hcall] at hsome
    cases hsome
  · exact ⟨⟨hcall, hjob⟩, exists_ofRequest_of_decode_request hdecode⟩

/-- Giving the sequencer an operation starts that operation or nothing. -/
theorem HostOnly.exec {s t : State} {r : Request} (h : HostOnly s)
    (he : exec (Instr.ofRequest r) s = .next t) : HostOnly t := by
  have hcall : s.call = none := h.1
  rw [exec_ofRequest] at he
  obtain ⟨-, rfl⟩ | rfl := State.accept_next he
  · exact hostOnly_of_run ((State.start_call ..).trans hcall) (State.start_seq ..)
  · exact h

/-- Settles O50: nothing a step can do sets `call`, and a job is only started from the port. -/
theorem stepKeepsHostOnly : Obligations.StepKeepsHostOnly := by
  intro s t h hstep
  have hcall : s.call = none := h.1
  obtain ⟨-, rfl⟩ | ⟨-, ⟨job, prog, pos, rx, hs, -, hrun⟩ | ⟨-, hidle⟩⟩ := step_cases hstep
  · exact hostOnly_of_idle ((State.applyReset_call ..).trans hcall) (State.applyReset_seq ..)
  · obtain ⟨-, rfl⟩ | ⟨p, -, -, rfl⟩ := hrun
    · exact hostOnly_of_idle ((State.complete_call ..).trans hcall) (State.complete_seq ..)
    · obtain ⟨r, rfl⟩ := h.exists_operation hs
      exact hostOnly_of_run ((State.perform_call ..).trans hcall) (State.perform_seq ..)
  · obtain ⟨-, rfl⟩ | ⟨i, u, hf, he⟩ := hidle
    · exact h
    · obtain ⟨hu, r, rfl⟩ := h.fetched hf
      exact hu.exec he

end Sys2Proof.Machine
end

section
/-! SUPPORT. The exception family (60_exceptions.md): the only two ways the machine stops while it serves the host's
requests, and what a step takes from the inputs. -/

namespace Sys2Proof.Machine

/-! ### Where a step stops (R210, R223) -/

/-- While another agent drives the bus, a step in `Run` is the refusal (R223). -/
theorem State.advance_shared {s : State} (h : s.otherAgent = true) (job : Job) (prog : List Prim) (pos : Nat)
    (rx : List Byte) : s.advance job prog pos rx = .refused .exclusiveBusBroken := by
  simp [State.advance, h]

/-- Settles O42: out of reset, a step in `Run` is the sequencer's, which asks for the bus first. -/
theorem sharedBusIsRefused : Obligations.SharedBusIsRefused :=
  fun _ job prog pos rx hs hrst hbus => (step_run hrst hs).trans (State.advance_shared hbus job prog pos rx)

/-- Every answer of a step in `Run`: a next state, the hang (41_sequencer.md R143) or the shared bus (R223). -/
theorem State.advance_outcome (s : State) (job : Job) (prog : List Prim) (pos : Nat) (rx : List Byte) :
    (∃ t, s.advance job prog pos rx = .next t) ∨
      (s.stallIn = some 0 ∧ s.advance job prog pos rx = .fault .transportNeverCompletes) ∨
      (s.otherAgent = true ∧ s.advance job prog pos rx = .refused .exclusiveBusBroken) := by
  cases hbus : s.otherAgent with
  | true => exact .inr (.inr ⟨rfl, State.advance_shared hbus ..⟩)
  | false =>
    cases hp : prog[pos]? with
    | none => exact .inl ⟨_, State.advance_complete hbus (List.getElem?_eq_none_iff.1 hp)⟩
    | some p =>
      by_cases hstall : s.stallIn = some 0
      · exact .inr (.inl ⟨hstall, by simp [State.advance, hbus, hp, hstall]⟩)
      · exact .inl ⟨_, State.advance_perform hbus hstall hp⟩

/-- Giving the sequencer an operation never stops it, whatever its operands (30_encoding.md R97). -/
theorem exists_exec_ofRequest (r : Request) (s : State) : ∃ t, exec (Instr.ofRequest r) s = .next t := by
  rw [exec_ofRequest]
  cases hs : s.seq with
  | idle => exact ⟨_, State.accept_idle hs ..⟩
  | run => exact ⟨_, State.accept_run hs ..⟩

/-- In `Idle`, where only the host's requests are served, every step answers a next state. -/
theorem HostOnly.exists_step_of_idle {s : State} (h : HostOnly s) (hrst : s.rst = false) (hs : s.seq = .idle) :
    ∃ t, step s = .next t := by
  cases hf : s.fetched with
  | none => exact ⟨s, step_wait hrst hs hf⟩
  | some taken =>
    obtain ⟨-, r, hr⟩ := h.fetched hf
    rw [step_idle hrst hs hf, hr]
    exact exists_exec_ofRequest r _

/-- A step with reset applied is `State.applyReset`, in every state (R212). -/
theorem step_reset {s : State} (h : s.rst = true) : step s = .next s.applyReset := by
  simp [step, h]

/-- Every answer of a step where only the host's requests are served. -/
theorem HostOnly.step_outcome {s : State} (h : HostOnly s) :
    (∃ t, step s = .next t) ∨
      (s.stallIn = some 0 ∧ s.seq ≠ .idle ∧ step s = .fault .transportNeverCompletes) ∨
      (s.otherAgent = true ∧ s.seq ≠ .idle ∧ step s = .refused .exclusiveBusBroken) := by
  cases hrst : s.rst with
  | true => exact .inl ⟨_, step_reset hrst⟩
  | false =>
    cases hs : s.seq with
    | idle => exact .inl (h.exists_step_of_idle hrst hs)
    | run job prog pos rx => simpa [step_run hrst hs] using s.advance_outcome job prog pos rx

/-- Settles O43: of the answers of a step, one is a fault and one a refusal. -/
theorem onlyTheNamedStops : Obligations.OnlyTheNamedStops := by
  intro s h
  obtain ⟨t, hnext⟩ | ⟨hstall, hs, hfault⟩ | ⟨hbus, hs, hrefused⟩ := h.step_outcome
  · simp [hnext]
  · simp [hfault, hstall, hs]
  · simp [hrefused, hbus, hs]

/-! ### What a step takes from the inputs (R222) -/

/-- From `s` to `t` the inputs lost at most the head of the port, the head of the script, the pending direct invocation
and one primitive of what the transport still completes. -/
def InputsTaken (s t : State) : Prop :=
  t.rst = s.rst ∧ t.otherAgent = s.otherAgent ∧ (t.port = s.port ∨ t.port = s.port.tail) ∧
    (t.answers = s.answers ∨ t.answers = s.answers.tail) ∧ (t.call = s.call ∨ t.call = none) ∧
    (t.stallIn = s.stallIn ∨ t.stallIn = stallTick s.stallIn)

theorem InputsTaken.refl (s : State) : InputsTaken s s :=
  ⟨rfl, rfl, .inl rfl, .inl rfl, .inl rfl, .inl rfl⟩

/-- Reset leaves every input (log 4). -/
theorem inputsTaken_applyReset (s : State) : InputsTaken s s.applyReset := InputsTaken.refl s

/-- Completion takes nothing from the inputs (41_sequencer.md R140). -/
theorem inputsTaken_complete (s : State) (job : Job) (rx : List Byte) : InputsTaken s (s.complete job rx) :=
  InputsTaken.refl s

/-- A primitive is counted off the transport; an RX takes the next byte of the script (41_sequencer.md R139). -/
theorem inputsTaken_perform (s : State) (job : Job) (prog : List Prim) (pos : Nat) (rx : List Byte) (p : Prim) :
    InputsTaken s (s.perform job prog pos rx p) := by
  refine ⟨State.perform_rst .., State.perform_otherAgent .., .inl (State.perform_port ..), ?_,
    .inl (State.perform_call ..), .inr (State.perform_stallIn ..)⟩
  rw [State.perform_answers]
  cases p with
  | rx => exact .inr (State.takeByte_answers s)
  | sel | desel | tx => exact .inl rfl

/-- What is taken in `Idle` is the pending direct invocation or the head of the port (41_sequencer.md R138). -/
theorem inputsTaken_fetched {s u : State} {i : Instr} (hf : s.fetched = some (i, u)) : InputsTaken s u := by
  obtain ⟨ps, -, -, rfl⟩ | ⟨p, ps, -, hport, -, rfl⟩ := State.fetched_some hf
  · exact ⟨rfl, rfl, .inl rfl, .inl rfl, .inr rfl, .inl rfl⟩
  · exact ⟨rfl, rfl, .inr (congrArg List.tail hport).symm, .inl rfl, .inl rfl, .inl rfl⟩

/-- Giving the sequencer an instruction takes nothing more: starting a job leaves the inputs. -/
theorem InputsTaken.exec {s u t : State} {i : Instr} (h : InputsTaken s u) (he : exec i u = .next t) :
    InputsTaken s t := by
  obtain rfl | ⟨_, -, -, rfl⟩ := exec_next he <;> exact h

/-- Settles O53: each of the things a step can do takes no more than that. -/
theorem stepOnlyTakesFromTheInputs : Obligations.StepOnlyTakesFromTheInputs := by
  intro s t hstep
  change InputsTaken s t
  obtain ⟨-, rfl⟩ | ⟨-, ⟨job, prog, pos, rx, -, -, hrun⟩ | ⟨-, hidle⟩⟩ := step_cases hstep
  · exact inputsTaken_applyReset s
  · obtain ⟨-, rfl⟩ | ⟨p, -, -, rfl⟩ := hrun
    · exact inputsTaken_complete s job rx
    · exact inputsTaken_perform s job prog pos rx p
  · obtain ⟨-, rfl⟩ | ⟨i, u, hf, he⟩ := hidle
    · exact InputsTaken.refl _
    · exact (inputsTaken_fetched hf).exec he

end Sys2Proof.Machine
end

section
/-! SUPPORT. The reset and hazard family (70_reset_and_hazards.md). -/

namespace Sys2Proof.Machine

/-- What reset changes, with the DESEL of an open bracket chosen by whether chip-select is asserted
(70_reset_and_hazards.md R240, R241). -/
theorem State.applyReset_eq (s : State) : s.applyReset =
    { s with
      seq := .idle
      sel := .deasserted
      done := none
      trace := if s.sel = .asserted then s.trace ++ [.desel] else s.trace } := by
  cases hsel : s.sel <;> simp [State.applyReset, hsel]

/-- Settles O44: a step with reset applied is `State.applyReset`, before the state is looked at (R212). -/
theorem resetAbandonsTheOperation : Obligations.ResetAbandonsTheOperation :=
  fun s hrst => (step_reset hrst).trans (congrArg _ s.applyReset_eq)

end Sys2Proof.Machine
end
